-- ==== Sys2Proof/Word.lean ====
section
/-!
DEFINITION. The two word types of the machine (00_scope R6, R7): 8-bit bytes and 16-bit words, both plain bit
vectors, so that `+` and `-` are the modular operations of R7.
-/

namespace Sys2Proof

/-- An 8-bit value, unsigned 0 to 255 (R7). -/
abbrev Byte := BitVec 8

/-- A 16-bit value: an address, PC, SP or a register pair, unsigned 0 to 65535 (R7). -/
abbrev Word := BitVec 16

end Sys2Proof
end

