-- ==== Sys2Proof/Machine/Bits.lean ====
section
/-!
DEFINITION. Byte order, halves and extensions of words (00_scope R7, 20_memory R65): the helpers every operation
uses, kept in one place so that each convention is decided once.
-/

namespace Sys2Proof.Machine

/-- `v[15:8]` (R7). -/
def hiByte (v : Word) : Byte := v.extractLsb' 8 8

/-- `v[7:0]` (R7). -/
def loByte (v : Word) : Byte := v.extractLsb' 0 8

/-- `hi:lo`, the concatenation with `hi` in the high bits (R7). -/
def wordOf (hi lo : Byte) : Word := hi ++ lo

/-- `sext_16(v)`: `v` if `v < 128`, else `v + 0xFF00` (R7). -/
def sext16 (v : Byte) : Word := v.signExtend 16

/-- `zext_16(v)` (R7). -/
def zext16 (v : Byte) : Word := v.zeroExtend 16

end Sys2Proof.Machine
end

