-- ==== Sys2Proof/Config.lean ====
section
/-!
DEFINITION. The implementation parameters of 00_scope R6, as one record, and the values the spec leaves OPEN and
the engine cannot observe, as constants without a body. The record is a field of `State`: statements over every
state hold for every RAM window, every SP_RESET, every cycle table and both readings of Mode2.
-/

namespace Sys2Proof

/-- The cycle table `CYC` (70_reset_and_hazards R335): one natural number for each key of the table. -/
structure Cyc where
  nop : Nat
  ldRR : Nat
  ldRN : Nat
  ldDDNN : Nat
  ldSPHL : Nat
  aluR : Nat
  aluN : Nat
  incR : Nat
  decR : Nat
  addHLSS : Nat
  adcHLSS : Nat
  sbcHLSS : Nat
  incSS : Nat
  decSS : Nat
  jp : Nat
  jpCC : Nat
  jr : Nat
  jrCCTaken : Nat
  jrCCNot : Nat
  push : Nat
  pop : Nat
  ei : Nat
  di : Nat
  im : Nat
  reti : Nat
  retn : Nat
  rst : Nat
  halt : Nat
  haltIdle : Nat
  intNmi : Nat
  intIm0 : Nat
  intIm1 : Nat
  intIm2 : Nat
deriving DecidableEq, Repr

/-- Every cost of the table, in the order of R335. -/
def Cyc.costs (t : Cyc) : List Nat :=
  [t.nop, t.ldRR, t.ldRN, t.ldDDNN, t.ldSPHL, t.aluR, t.aluN, t.incR, t.decR, t.addHLSS, t.adcHLSS] ++
  [t.sbcHLSS, t.incSS, t.decSS, t.jp, t.jpCC, t.jr, t.jrCCTaken, t.jrCCNot, t.push, t.pop, t.ei] ++
  [t.di, t.im, t.reti, t.retn, t.rst, t.halt, t.haltIdle, t.intNmi, t.intIm0, t.intIm1, t.intIm2]

/-- The default numbers of R335. PRESUMED (LOG 3): the spec takes them from general knowledge of the Z80 and
offers them as the default of a parameter (D10). -/
def Cyc.default : Cyc where
  nop := 4
  ldRR := 4
  ldRN := 7
  ldDDNN := 10
  ldSPHL := 6
  aluR := 4
  aluN := 7
  incR := 4
  decR := 4
  addHLSS := 11
  adcHLSS := 15
  sbcHLSS := 15
  incSS := 6
  decSS := 6
  jp := 10
  jpCC := 10
  jr := 12
  jrCCTaken := 12
  jrCCNot := 7
  push := 11
  pop := 10
  ei := 4
  di := 4
  im := 8
  reti := 14
  retn := 14
  rst := 11
  halt := 4
  haltIdle := 4
  intNmi := 11
  intIm0 := 13
  intIm1 := 13
  intIm2 := 19

/-- The parameters of R6 that the engine reads. -/
structure Config where
  /-- RAM_LO, the first writable address (R63). -/
  ramLo : Word
  /-- RAM_HI, the last writable address (R63); the window is empty when `ramLo > ramHi` (D12). -/
  ramHi : Word
  /-- SP_RESET, the "configured RAM top" (R320, D11). -/
  spReset : Word
  /-- IM2_INDIRECT: whether a Mode2 entry reads the vector table (R264, D9). -/
  im2Indirect : Bool
  /-- CYC, the cycle table (R335). -/
  cyc : Cyc
deriving DecidableEq, Repr

/-- The parameters `State.reset` carries: the configuration TESTCFG of 95_test_vectors. DESIGN CHOICE (LOG 2, 4): the
spec leaves them open; no statement rests on these values. -/
def Config.testCfg : Config where
  ramLo := 0x8000
  ramHi := 0xFFFF
  spReset := 0xF000
  im2Indirect := true
  cyc := Cyc.default

/-- NMI_SENTINEL, the priority of the NMI request record (R6, R257): OPEN, read by nothing (LOG 10). -/
opaque Config.nmiSentinel : Int

/-- The vector byte of the NMI request record: "unspecified" (R257), read by nothing (LOG 10). -/
opaque Config.nmiVector : Byte

/-- The `id` string of the canonical CPU NMI source (R51): not given, read by nothing (LOG 10). -/
opaque Config.nmiSourceId : String

/-- The `name` of the canonical CPU NMI source (R51): not given, read by nothing (LOG 10). -/
opaque Config.nmiSourceName : String

/-- The `id` string of the canonical null source (R51): not given, read by nothing (LOG 10). -/
opaque Config.nullSourceId : String

/-- The `name` of the canonical null source (R51): not given, read by nothing (LOG 10). -/
opaque Config.nullSourceName : String

end Sys2Proof
end

