-- ==== Sys2Proof/Machine/Request.lean ====
section
/-!
DEFINITION. The interrupt request and its parts as plain data (10_state R43, R50, R51).
-/

namespace Sys2Proof.Machine

/-- The interrupt mode: three values and no other is representable (R43, R282). -/
inductive IntMode where
  | mode0
  | mode1
  | mode2
deriving DecidableEq, Repr

/-- The type of a request (R50). -/
inductive IntType where
  | maskable
  | nonMaskable
deriving DecidableEq, Repr

/-- The category of a source: the nine values of R51 (90_conflicts C5). -/
inductive SourceCategory where
  | cpu
  | timer
  | io
  | video
  | audio
  | external
  | system
  | test
  | unknown
deriving DecidableEq, Repr

/-- The variants of a source that R51 lists. DESIGN CHOICE (LOG 11): the payload types are not given. -/
inductive SourceVariant where
  | null
  | nmi
  | timer (frequency : Nat)
  | io (port : Option Byte)
  | video (kind : String)
  | system (reason : String)
  | test (label : String)
deriving DecidableEq, Repr

/-- An identity object, carried along and read by no rule of the block (R50, R51). -/
structure InterruptSource where
  id : String
  name : String
  category : SourceCategory
  variant : SourceVariant
deriving DecidableEq, Repr

/-- "equality and hashing by `id`" (R51). -/
def InterruptSource.same (x y : InterruptSource) : Bool := x.id == y.id

/-- The canonical CPU NMI source (R51). -/
def InterruptSource.cpuNmi : InterruptSource :=
  ⟨Config.nmiSourceId, Config.nmiSourceName, .cpu, .nmi⟩

/-- The canonical null source (R51). DESIGN CHOICE (LOG 11): its category is not given. -/
def InterruptSource.nullSource : InterruptSource :=
  ⟨Config.nullSourceId, Config.nullSourceName, .unknown, .null⟩

/-- An immutable request (R50); `priority` is a mathematical integer, lower is more urgent (D18). -/
structure InterruptRequest where
  type : IntType
  vector : Byte
  priority : Int
  source : InterruptSource
deriving DecidableEq, Repr

end Sys2Proof.Machine
end

