-- ==== Sys2Proof/Machine/State.lean ====
section
/-!
DEFINITION. The state of the machine, the reasons a step can stop, and the state right after reset.
-/

namespace Sys2Proof.Machine

/-- Why a Step fails. The only failure a running block can raise (60_exceptions R280, R284). -/
inductive Fault where
  /-- Raised by fetching (Machine/Fetch.lean) when the byte at `addr`, or the byte after the prefix 0xED, has no
  decode entry (R104, R280, R281); `op2` is present when `op` is 0xED. Also answered again by a Step taken while it
  is latched (D23, LOG 7). Safe: the machine stops, as "fatal to the current Step call" says. -/
  | unimplementedOpcode (addr : Word) (op : Byte) (op2 : Option Byte)
deriving DecidableEq, Repr

/-- Why an instruction has no meaning in this model. -/
inductive Refusal where
  /-- Raised only by an arm of `exec` for an instruction whose meaning is not written yet; no arm does so now.
  Safe: nothing can be proved of a step that is refused. -/
  | notModelled (mnemonic : String)
deriving DecidableEq, Repr

/-- The byte store: (address, byte) pairs, ascending, none of them equal to what an unlisted address reads as, which
is 0x00 (20_memory R61, R62). The operations are in Machine/Memory.lean. -/
abbrev Memory := List Host.Cell

/-- Everything the spec gives the machine (10_state sections 1 to 5; INVENTORY.md lists each field with its rule). -/
structure State where
  /-- A (R20). -/
  a : Byte
  /-- F: ZF is bit 6, CF is bit 0, the rest is storage (R25). -/
  f : Byte
  /-- B (R20). -/
  b : Byte
  /-- C (R20). -/
  c : Byte
  /-- D (R20). -/
  d : Byte
  /-- E (R20). -/
  e : Byte
  /-- H (R20). -/
  h : Byte
  /-- L (R20). -/
  l : Byte
  /-- SP, the address of the last byte pushed (R23). -/
  sp : Word
  /-- PC, between Steps the address of the next opcode byte (R24). -/
  pc : Word
  /-- Halted (R29). -/
  halted : Bool
  /-- Cycles, elapsed clock cycles since the last Reset, modulo 2^64 (R30, R31). -/
  cycles : BitVec 64
  /-- The failure latch (R32). -/
  fault : Option Fault
  /-- Master enable for maskable interrupts (R41). -/
  iff1 : Bool
  /-- Saved copy of `iff1` (R42). -/
  iff2 : Bool
  /-- Interrupt mode (R43). -/
  mode : IntMode
  /-- I, ZENIX's vectorRegister (R44). -/
  i : Byte
  /-- The EI delay, 0 or 1 (R45). -/
  eiDelay : Fin 2
  /-- Whether maskable interrupts may be recognised this Step; dead between Steps (R46). -/
  samplePoint : Bool
  /-- The NMI latch (R47). -/
  nmiPending : Bool
  /-- True only between the selection and the consumption of an NMI, inside one Step (R48). -/
  nmiTriggered : Bool
  /-- The queue of maskable requests, ascending by priority, the head is taken next (R49). -/
  pendingMaskable : List InterruptRequest
  /-- The 64 KiB byte store (R53, R60). -/
  mem : Memory
  /-- The ROM size fixed by `Configure` or `LoadRom`; read by nothing (R61). -/
  romSize : Nat
  /-- The RAM size fixed by `Configure`; read by nothing (R61). -/
  ramSize : Nat
  /-- The implementation parameters (R6). -/
  config : Config
deriving DecidableEq, Repr

/-- A machine at power-on, before the first Reset, with the platform's parameters. DESIGN CHOICE (LOG 1, 9, 20, 24): the
spec leaves every register unspecified here; memory reads as zero, as `LoadRom` leaves it outside the image (R55). -/
def State.powerOn (p : Config) : State where
  a := 0
  f := 0
  b := 0
  c := 0
  d := 0
  e := 0
  h := 0
  l := 0
  sp := 0
  pc := 0
  halted := false
  cycles := 0
  fault := none
  iff1 := false
  iff2 := false
  mode := .mode0
  i := 0
  eiDelay := 0
  samplePoint := false
  nmiPending := false
  nmiTriggered := false
  pendingMaskable := []
  mem := []
  romSize := 0
  ramSize := 0
  config := p

/-- The machine right after reset (R55, R320): PC 0x0000, SP at `SP_RESET`, not halted, Cycles 0, maskable interrupts
disabled, Mode0, I 0x00, nothing pending. The 8-bit registers are zero by LOG 1, the parameters those of LOG 2, 3
and 4, memory lists nothing. -/
def State.reset : State where
  a := 0
  f := 0
  b := 0
  c := 0
  d := 0
  e := 0
  h := 0
  l := 0
  sp := Config.testCfg.spReset
  pc := 0
  halted := false
  cycles := 0
  fault := none
  iff1 := false
  iff2 := false
  mode := .mode0
  i := 0
  eiDelay := 0
  samplePoint := false
  nmiPending := false
  nmiTriggered := false
  pendingMaskable := []
  mem := []
  romSize := 0
  ramSize := 0
  config := Config.testCfg

end Sys2Proof.Machine
end

