-- ==== Sys2Proof/Machine/Controller.lean ====
section
/-!
DEFINITION. The interrupt controller's operations (60_exceptions section 1, R250 to R263). Each is one atomic
operation on the controller's fields and changes no other field of the state.
-/

namespace Sys2Proof.Machine

/-- `EnableInterrupts()` (R251). -/
def enableInterrupts (s : State) : State :=
  { s with iff1 := true, iff2 := true, eiDelay := 1 }

/-- `DisableInterrupts()` (R252). -/
def disableInterrupts (s : State) : State :=
  { s with iff1 := false, iff2 := false, eiDelay := 0 }

/-- The EI delay lowered by one if it is positive (R253). -/
def lowerEiDelay (n : Fin 2) : Fin 2 := ⟨n.val - 1, by omega⟩

/-- `BeforeInstruction()` (R253): the sample point is tested on the delay found on entry, before the decrement
(90_conflicts C1). -/
def beforeInstruction (s : State) : State :=
  { s with samplePoint := decide (s.eiDelay = 0), eiDelay := lowerEiDelay s.eiDelay }

/-- A request put into the queue after every entry of lower-or-equal priority number: at position k, the number of such
entries (R254). -/
def enqueue (q : List InterruptRequest) (r : InterruptRequest) : List InterruptRequest :=
  let k := q.countP fun x => decide (x.priority ≤ r.priority)
  q.take k ++ r :: q.drop k

/-- `RequestInterrupt(request)` (R254): an NMI sets the latch whatever it held, a maskable request is queued. -/
def requestInterrupt (r : InterruptRequest) (s : State) : State :=
  match r.type with
  | .nonMaskable => { s with nmiPending := true }
  | .maskable => { s with pendingMaskable := enqueue s.pendingMaskable r }

/-- `SetInterruptMode(m)` (R255). -/
def setInterruptMode (m : IntMode) (s : State) : State :=
  { s with mode := m }

/-- The request that stands for an NMI (R257). Its vector and priority are OPEN and read by nothing (LOG 10). -/
def nmiRequest : InterruptRequest :=
  ⟨.nonMaskable, Config.nmiVector, Config.nmiSentinel, InterruptSource.cpuNmi⟩

/-- `ShouldProcessInterrupt()` (R256): the NMI if it is latched and not already triggered, whatever `iff1` is; else the
head of the queue if `iff1` and the sample point hold; else none. Taking the head removes it. -/
def shouldProcessInterrupt (s : State) : Option InterruptRequest × State :=
  if s.nmiPending && !s.nmiTriggered then
    (some nmiRequest, { s with nmiTriggered := true, nmiPending := false })
  else if s.iff1 && s.samplePoint then
    match s.pendingMaskable with
    | [] => (none, s)
    | r :: rest => (some r, { s with pendingMaskable := rest })
  else (none, s)

/-- `ProcessInterrupt(request)` (R258): the instruction byte and the vector, after `iff2 <- iff1; iff1 <- false`. The mode
used is the one stored when the interrupt is taken. -/
def processInterrupt (r : InterruptRequest) (s : State) : (Byte × Word) × State :=
  let s := { s with iff2 := s.iff1, iff1 := false }
  match r.type with
  | .nonMaskable => ((0x00, 0x0066), { s with nmiTriggered := false })
  | .maskable =>
    match s.mode with
    | .mode0 => ((r.vector, 0x0000), s)
    | .mode1 => ((0x00, 0x0038), s)
    | .mode2 => ((0x00, s.i ++ r.vector), s)

/-- `ReturnFromInterrupt()` (R259). -/
def returnFromInterrupt (s : State) : State :=
  { s with iff1 := s.iff2 }

/-- `ReturnFromNonMaskableInterrupt()` (R259): the same restoration as `ReturnFromInterrupt()`. -/
def returnFromNonMaskableInterrupt (s : State) : State :=
  { s with iff1 := s.iff2 }

/-- `InterruptController.Reset()` (R260). The sample point is not written (R55). -/
def controllerReset (s : State) : State :=
  { s with
    pendingMaskable := [], nmiPending := false, nmiTriggered := false, mode := .mode0, i := 0x00, iff1 := false,
    iff2 := false, eiDelay := 0 }

/-- `SetVectorRegister(v)` (R263), a host operation. -/
def setVectorRegister (v : Byte) (s : State) : State :=
  { s with i := v }

end Sys2Proof.Machine
end

