-- ==== Sys2Proof/Machine/Memory.lean ====
section
/-!
DEFINITION. The RAM window, and the byte store and its operations (20_memory R61, R62, R63): a list of cells in one
canonical form. Reading and writing are right on every list; every operation keeps the canonical form.
-/

namespace Sys2Proof

/-- Whether an address lies in the RAM window `RAM_LO <= addr <= RAM_HI`, bounds included (R63). -/
def Config.inRam (p : Config) (addr : Word) : Bool :=
  decide (p.ramLo.toNat ≤ addr.toNat) && decide (addr.toNat ≤ p.ramHi.toNat)

end Sys2Proof

namespace Sys2Proof.Machine

/-- What an address that is not listed reads as: the zero that `LoadRom` leaves (R61, R62; LOG 5). -/
def Memory.unlisted : Byte := 0x00

/-- The byte at an address: the first cell listed for it, else what an unlisted address reads as (R62). -/
def Memory.read (m : Memory) (addr : Nat) : Byte :=
  match m with
  | [] => Memory.unlisted
  | cell :: rest => if cell.1 = addr then cell.2 else Memory.read rest addr

/-- The memory with no cell for an address. -/
def Memory.erase (m : Memory) (addr : Nat) : Memory :=
  m.filter fun cell => cell.1 != addr

/-- The memory with one more cell, put before the first cell of a higher address. -/
def Memory.insert (m : Memory) (addr : Nat) (v : Byte) : Memory :=
  match m with
  | [] => [(addr, v)]
  | cell :: rest => if cell.1 < addr then cell :: Memory.insert rest addr v else (addr, v) :: cell :: rest

/-- The memory after `mem[addr] <- v`. Writing the value an unlisted address reads as removes the cell. -/
def Memory.write (m : Memory) (addr : Nat) (v : Byte) : Memory :=
  if v = Memory.unlisted then m.erase addr else (m.erase addr).insert addr v

/-- The canonical form: addresses strictly rising, all below 65536, and no cell equal to what an unlisted address reads
as. Equal memories in this form are equal lists. -/
def Memory.wf (m : Memory) : Bool :=
  match m with
  | [] => true
  | cell :: rest =>
    decide (cell.1 < 65536) && (cell.2 != Memory.unlisted) && rest.all (fun k => decide (cell.1 < k.1)) &&
      Memory.wf rest

/-- The cells of a ROM image placed from an address on: what `LoadRom` leaves (R61). -/
def Memory.ofImage (addr : Nat) (bytes : List Byte) : Memory :=
  match bytes with
  | [] => []
  | v :: rest => if v = Memory.unlisted then Memory.ofImage (addr + 1) rest else (addr, v) :: Memory.ofImage (addr + 1) rest

end Sys2Proof.Machine
end

