-- ==== Sys2Proof/Machine/Ops.lean ====
section
/-!
DEFINITION. The named operations over registers and memory that every meaning is written with: register updates,
the cycle counter, byte and word accesses, the stack, taking an interrupt and returning from one.
-/

namespace Sys2Proof.Machine

/-- What a meaning answers. -/
abbrev Out := Host.Outcome State Fault Refusal

/-- `PC <- target` (R24). -/
def State.setPC (s : State) (v : Word) : State := { s with pc := v }

/-- `SP <- v` (R23). -/
def State.setSP (s : State) (v : Word) : State := { s with sp := v }

/-- All eight bits of F (R25). -/
def State.setF (s : State) (v : Byte) : State := { s with f := v }

/-- `Halted <- b` (R29). -/
def State.setHalted (s : State) (v : Bool) : State := { s with halted := v }

/-- `Cycles += n`, modulo 2^64 (R31). -/
def State.addCycles (s : State) (n : Nat) : State := { s with cycles := s.cycles + BitVec.ofNat 64 n }

/-- The memory store replaced as a whole; the other operations of memory go through this one update. -/
def State.setMem (s : State) (m : Memory) : State := { s with mem := m }

/-- `MemRead(addr, 1)`: the stored byte, at every address (R62). -/
def State.readByte (s : State) (addr : Word) : Byte := s.mem.read addr.toNat

/-- `MemWrite(addr, 1, v)`: a store inside the RAM window, nothing outside it (R63). -/
def State.writeByte (s : State) (addr : Word) (v : Byte) : State :=
  if s.config.inRam addr then s.setMem (s.mem.write addr.toNat v) else s

/-- `MemRead(addr, 2)`: two byte reads, the low byte at the lower address (R66). -/
def State.readWord (s : State) (addr : Word) : Word := wordOf (s.readByte (addr + 1)) (s.readByte addr)

/-- `MemWrite(addr, 2, v)`: two byte writes, each kept or dropped on its own (R66). -/
def State.writeWord (s : State) (addr : Word) (v : Word) : State :=
  (s.writeByte addr (loByte v)).writeByte (addr + 1) (hiByte v)

/-- The first half of `Push16`: one byte at SP - 1 (R216). -/
def State.pushByte (s : State) (v : Byte) : State :=
  let s := s.setSP (s.sp - 1)
  s.writeByte s.sp v

/-- `Push16(v)`: the high byte at SP - 1, then the low byte at SP - 2 (R216). -/
def State.push16 (s : State) (v : Word) : State := (s.pushByte (hiByte v)).pushByte (loByte v)

/-- One byte read at SP, which then goes up by one (R217). -/
def State.popByte (s : State) : Byte × State := (s.readByte s.sp, s.setSP (s.sp + 1))

/-- `Pop16()`: the low byte at SP, then the high byte at SP + 1 (R217). -/
def State.pop16 (s : State) : Word × State :=
  let low := s.popByte
  let high := low.2.popByte
  (wordOf high.1 low.1, high.2)

/-- The Mode0 instruction-byte decoder (R262, R106): `11xxx111` is RST, 8 times the middle bits; any other byte is not
decoded and enters at 0x0038. -/
def mode0Entry (instructionByte : Byte) : Word :=
  if instructionByte &&& 0xC7 = 0xC7 then zext16 (instructionByte &&& 0x38) else 0x0038

/-- Where a Mode2 entry goes: to the word in the vector table at `vec`, or to `vec` itself when the configuration takes
the other reading (R264, D9). The table is read after the push. -/
def mode2Entry (vec : Word) (s : State) : Word :=
  if s.config.im2Indirect then s.readWord vec else vec

/-- TAKING AN INTERRUPT, the one exception entry of this hardware: `HandleInterrupt(request)` (R264, R265). The controller
saves `iff1` in `iff2` and clears it, the PC of the next instruction is pushed, the PC goes to the entry for the type
and the mode, Halted is cleared, and the entry's cost is added. -/
def handleInterrupt (r : InterruptRequest) (s : State) : State :=
  let m := s.mode
  let processed := processInterrupt r s
  let s := processed.2.push16 processed.2.pc
  match r.type with
  | .nonMaskable => ((s.setPC 0x0066).setHalted false).addCycles s.config.cyc.intNmi
  | .maskable =>
    match m with
    | .mode0 => ((s.setPC (mode0Entry processed.1.1)).setHalted false).addCycles s.config.cyc.intIm0
    | .mode1 => ((s.setPC 0x0038).setHalted false).addCycles s.config.cyc.intIm1
    | .mode2 => ((s.setPC (mode2Entry processed.1.2 s)).setHalted false).addCycles s.config.cyc.intIm2

/-- The stack half of a return from a handler: `PC <- Pop16()` (R231, R232, R267). -/
def popPC (s : State) : State :=
  let popped := s.pop16
  popped.2.setPC popped.1

end Sys2Proof.Machine
end

