-- ==== Sys2Proof/Syntax.lean ====
section
/-!
DEFINITION. The instructions as data, with the operand codes of 30_encoding R94 to R98 as closed types, and for each
form of the instruction files 41 to 48 a function that names the constructor by its operands.
-/

namespace Sys2Proof

/-- `R8[code]`: the 8-bit registers an opcode can name (R94). F has no code (R21). -/
inductive Reg8 where
  | b
  | c
  | d
  | e
  | h
  | l
  | a
deriving DecidableEq, Repr

/-- `R16dd[code]`: the pairs and SP (R95). -/
inductive RegDD where
  | bc
  | de
  | hl
  | sp
deriving DecidableEq, Repr

/-- `R16qq[code]`: the pairs PUSH and POP name (R96). -/
inductive RegQQ where
  | bc
  | de
  | hl
  | af
deriving DecidableEq, Repr

/-- The condition codes: one for each state of each modelled flag (R97). -/
inductive Cond where
  | nz
  | z
  | nc
  | c
deriving DecidableEq, Repr

/-- The 8-bit ALU operations (R98). -/
inductive AluOp where
  | add
  | adc
  | sub
  | sbc
  | and
  | xor
  | or
  | cp
deriving DecidableEq, Repr

/-- The eight RST targets, named by address (R241). -/
inductive RstTarget where
  | to00
  | to08
  | to10
  | to18
  | to20
  | to28
  | to30
  | to38
deriving DecidableEq, Repr

/-- The operand of IM (R99). -/
inductive IntModeNum where
  | mode0
  | mode1
  | mode2
deriving DecidableEq, Repr

/-- The 3-bit code of a register (R94). -/
def Reg8.code (r : Reg8) : Byte :=
  match r with
  | .b => 0
  | .c => 1
  | .d => 2
  | .e => 3
  | .h => 4
  | .l => 5
  | .a => 7

/-- The 2-bit code `dd` or `ss` (R95). -/
def RegDD.code (r : RegDD) : Byte :=
  match r with
  | .bc => 0
  | .de => 1
  | .hl => 2
  | .sp => 3

/-- The 2-bit code `qq` (R96). -/
def RegQQ.code (r : RegQQ) : Byte :=
  match r with
  | .bc => 0
  | .de => 1
  | .hl => 2
  | .af => 3

/-- The 2-bit code `cc` (R97). -/
def Cond.code (cc : Cond) : Byte :=
  match cc with
  | .nz => 0
  | .z => 1
  | .nc => 2
  | .c => 3

/-- The 3-bit code of an ALU operation (R98). -/
def AluOp.code (op : AluOp) : Byte :=
  match op with
  | .add => 0
  | .adc => 1
  | .sub => 2
  | .sbc => 3
  | .and => 4
  | .xor => 5
  | .or => 6
  | .cp => 7

/-- The 3-bit code `y` of an RST (R241). -/
def RstTarget.code (t : RstTarget) : Byte :=
  match t with
  | .to00 => 0
  | .to08 => 1
  | .to10 => 2
  | .to18 => 3
  | .to20 => 4
  | .to28 => 5
  | .to30 => 6
  | .to38 => 7

/-- The instructions: one constructor for each of the 194 rows of spec/opcode_table.json, named as the row is with
its first word in small letters. An operand byte or word of the instruction stream is an argument (R99): `n` and `e`
are the byte after the opcode, `nn` the two bytes after it, low byte first. -/
inductive Instr where
  -- RST, HALT and NOP (48_rst_halt, 40_engine_step R130)
  | nop
  | halt
  | rst_00h
  | rst_08h
  | rst_10h
  | rst_18h
  | rst_20h
  | rst_28h
  | rst_30h
  | rst_38h
  -- Load instructions (41_loads)
  | ld_BC_nn (nn : Word)
  | ld_B_n (n : Byte)
  | ld_C_n (n : Byte)
  | ld_DE_nn (nn : Word)
  | ld_D_n (n : Byte)
  | ld_E_n (n : Byte)
  | ld_HL_nn (nn : Word)
  | ld_H_n (n : Byte)
  | ld_L_n (n : Byte)
  | ld_SP_nn (nn : Word)
  | ld_A_n (n : Byte)
  | ld_B_B
  | ld_B_C
  | ld_B_D
  | ld_B_E
  | ld_B_H
  | ld_B_L
  | ld_B_A
  | ld_C_B
  | ld_C_C
  | ld_C_D
  | ld_C_E
  | ld_C_H
  | ld_C_L
  | ld_C_A
  | ld_D_B
  | ld_D_C
  | ld_D_D
  | ld_D_E
  | ld_D_H
  | ld_D_L
  | ld_D_A
  | ld_E_B
  | ld_E_C
  | ld_E_D
  | ld_E_E
  | ld_E_H
  | ld_E_L
  | ld_E_A
  | ld_H_B
  | ld_H_C
  | ld_H_D
  | ld_H_E
  | ld_H_H
  | ld_H_L
  | ld_H_A
  | ld_L_B
  | ld_L_C
  | ld_L_D
  | ld_L_E
  | ld_L_H
  | ld_L_L
  | ld_L_A
  | ld_A_B
  | ld_A_C
  | ld_A_D
  | ld_A_E
  | ld_A_H
  | ld_A_L
  | ld_A_A
  | ld_SP_HL
  -- 8-bit arithmetic and logic (42_arith8)
  | add_A_B
  | add_A_C
  | add_A_D
  | add_A_E
  | add_A_H
  | add_A_L
  | add_A_A
  | adc_A_B
  | adc_A_C
  | adc_A_D
  | adc_A_E
  | adc_A_H
  | adc_A_L
  | adc_A_A
  | sub_B
  | sub_C
  | sub_D
  | sub_E
  | sub_H
  | sub_L
  | sub_A
  | sbc_A_B
  | sbc_A_C
  | sbc_A_D
  | sbc_A_E
  | sbc_A_H
  | sbc_A_L
  | sbc_A_A
  | and_B
  | and_C
  | and_D
  | and_E
  | and_H
  | and_L
  | and_A
  | xor_B
  | xor_C
  | xor_D
  | xor_E
  | xor_H
  | xor_L
  | xor_A
  | or_B
  | or_C
  | or_D
  | or_E
  | or_H
  | or_L
  | or_A
  | cp_B
  | cp_C
  | cp_D
  | cp_E
  | cp_H
  | cp_L
  | cp_A
  | add_A_n (n : Byte)
  | adc_A_n (n : Byte)
  | sub_n (n : Byte)
  | sbc_A_n (n : Byte)
  | and_n (n : Byte)
  | xor_n (n : Byte)
  | or_n (n : Byte)
  | cp_n (n : Byte)
  -- 16-bit arithmetic (43_arith16)
  | add_HL_BC
  | add_HL_DE
  | add_HL_HL
  | add_HL_SP
  | sbc_HL_BC
  | adc_HL_BC
  | sbc_HL_DE
  | adc_HL_DE
  | sbc_HL_HL
  | adc_HL_HL
  | sbc_HL_SP
  | adc_HL_SP
  -- Increment and decrement (44_incdec)
  | inc_BC
  | inc_B
  | dec_B
  | dec_BC
  | inc_C
  | dec_C
  | inc_DE
  | inc_D
  | dec_D
  | dec_DE
  | inc_E
  | dec_E
  | inc_HL
  | inc_H
  | dec_H
  | dec_HL
  | inc_L
  | dec_L
  | inc_SP
  | dec_SP
  | inc_A
  | dec_A
  -- Jumps (45_jumps)
  | jr_e (e : Byte)
  | jr_NZ_e (e : Byte)
  | jr_Z_e (e : Byte)
  | jr_NC_e (e : Byte)
  | jr_C_e (e : Byte)
  | jp_NZ_nn (nn : Word)
  | jp_nn (nn : Word)
  | jp_Z_nn (nn : Word)
  | jp_NC_nn (nn : Word)
  | jp_C_nn (nn : Word)
  -- Stack push and pop (46_stack)
  | pop_BC
  | push_BC
  | pop_DE
  | push_DE
  | pop_HL
  | push_HL
  | pop_AF
  | push_AF
  -- Interrupt control (47_intctl)
  | di
  | ei
  | retn
  | im_0
  | reti
  | im_1
  | im_2
deriving DecidableEq, Repr

/-- LD r,r' (R141), by its operands. -/
def Instr.ldRR (r r2 : Reg8) : Instr :=
  match r, r2 with
  | .b, .b => .ld_B_B
  | .b, .c => .ld_B_C
  | .b, .d => .ld_B_D
  | .b, .e => .ld_B_E
  | .b, .h => .ld_B_H
  | .b, .l => .ld_B_L
  | .b, .a => .ld_B_A
  | .c, .b => .ld_C_B
  | .c, .c => .ld_C_C
  | .c, .d => .ld_C_D
  | .c, .e => .ld_C_E
  | .c, .h => .ld_C_H
  | .c, .l => .ld_C_L
  | .c, .a => .ld_C_A
  | .d, .b => .ld_D_B
  | .d, .c => .ld_D_C
  | .d, .d => .ld_D_D
  | .d, .e => .ld_D_E
  | .d, .h => .ld_D_H
  | .d, .l => .ld_D_L
  | .d, .a => .ld_D_A
  | .e, .b => .ld_E_B
  | .e, .c => .ld_E_C
  | .e, .d => .ld_E_D
  | .e, .e => .ld_E_E
  | .e, .h => .ld_E_H
  | .e, .l => .ld_E_L
  | .e, .a => .ld_E_A
  | .h, .b => .ld_H_B
  | .h, .c => .ld_H_C
  | .h, .d => .ld_H_D
  | .h, .e => .ld_H_E
  | .h, .h => .ld_H_H
  | .h, .l => .ld_H_L
  | .h, .a => .ld_H_A
  | .l, .b => .ld_L_B
  | .l, .c => .ld_L_C
  | .l, .d => .ld_L_D
  | .l, .e => .ld_L_E
  | .l, .h => .ld_L_H
  | .l, .l => .ld_L_L
  | .l, .a => .ld_L_A
  | .a, .b => .ld_A_B
  | .a, .c => .ld_A_C
  | .a, .d => .ld_A_D
  | .a, .e => .ld_A_E
  | .a, .h => .ld_A_H
  | .a, .l => .ld_A_L
  | .a, .a => .ld_A_A

/-- LD r,n (R142), by its operands. -/
def Instr.ldRN (r : Reg8) (n : Byte) : Instr :=
  match r with
  | .b => .ld_B_n n
  | .c => .ld_C_n n
  | .d => .ld_D_n n
  | .e => .ld_E_n n
  | .h => .ld_H_n n
  | .l => .ld_L_n n
  | .a => .ld_A_n n

/-- LD dd,nn (R143), by its operands. -/
def Instr.ldDDNN (dd : RegDD) (nn : Word) : Instr :=
  match dd with
  | .bc => .ld_BC_nn nn
  | .de => .ld_DE_nn nn
  | .hl => .ld_HL_nn nn
  | .sp => .ld_SP_nn nn

/-- the eight 8-bit operations with a register (R151, R153, R155, R157, R159, R161, R163, R165), by its operands. -/
def Instr.aluR (op : AluOp) (r : Reg8) : Instr :=
  match op, r with
  | .add, .b => .add_A_B
  | .add, .c => .add_A_C
  | .add, .d => .add_A_D
  | .add, .e => .add_A_E
  | .add, .h => .add_A_H
  | .add, .l => .add_A_L
  | .add, .a => .add_A_A
  | .adc, .b => .adc_A_B
  | .adc, .c => .adc_A_C
  | .adc, .d => .adc_A_D
  | .adc, .e => .adc_A_E
  | .adc, .h => .adc_A_H
  | .adc, .l => .adc_A_L
  | .adc, .a => .adc_A_A
  | .sub, .b => .sub_B
  | .sub, .c => .sub_C
  | .sub, .d => .sub_D
  | .sub, .e => .sub_E
  | .sub, .h => .sub_H
  | .sub, .l => .sub_L
  | .sub, .a => .sub_A
  | .sbc, .b => .sbc_A_B
  | .sbc, .c => .sbc_A_C
  | .sbc, .d => .sbc_A_D
  | .sbc, .e => .sbc_A_E
  | .sbc, .h => .sbc_A_H
  | .sbc, .l => .sbc_A_L
  | .sbc, .a => .sbc_A_A
  | .and, .b => .and_B
  | .and, .c => .and_C
  | .and, .d => .and_D
  | .and, .e => .and_E
  | .and, .h => .and_H
  | .and, .l => .and_L
  | .and, .a => .and_A
  | .xor, .b => .xor_B
  | .xor, .c => .xor_C
  | .xor, .d => .xor_D
  | .xor, .e => .xor_E
  | .xor, .h => .xor_H
  | .xor, .l => .xor_L
  | .xor, .a => .xor_A
  | .or, .b => .or_B
  | .or, .c => .or_C
  | .or, .d => .or_D
  | .or, .e => .or_E
  | .or, .h => .or_H
  | .or, .l => .or_L
  | .or, .a => .or_A
  | .cp, .b => .cp_B
  | .cp, .c => .cp_C
  | .cp, .d => .cp_D
  | .cp, .e => .cp_E
  | .cp, .h => .cp_H
  | .cp, .l => .cp_L
  | .cp, .a => .cp_A

/-- the eight 8-bit operations with an immediate (R152, R154, R156, R158, R160, R162, R164, R166), by its operands. -/
def Instr.aluN (op : AluOp) (n : Byte) : Instr :=
  match op with
  | .add => .add_A_n n
  | .adc => .adc_A_n n
  | .sub => .sub_n n
  | .sbc => .sbc_A_n n
  | .and => .and_n n
  | .xor => .xor_n n
  | .or => .or_n n
  | .cp => .cp_n n

/-- ADD HL,ss (R181), by its operands. -/
def Instr.addHLSS (ss : RegDD) : Instr :=
  match ss with
  | .bc => .add_HL_BC
  | .de => .add_HL_DE
  | .hl => .add_HL_HL
  | .sp => .add_HL_SP

/-- ADC HL,ss (R182), by its operands. -/
def Instr.adcHLSS (ss : RegDD) : Instr :=
  match ss with
  | .bc => .adc_HL_BC
  | .de => .adc_HL_DE
  | .hl => .adc_HL_HL
  | .sp => .adc_HL_SP

/-- SBC HL,ss (R183), by its operands. -/
def Instr.sbcHLSS (ss : RegDD) : Instr :=
  match ss with
  | .bc => .sbc_HL_BC
  | .de => .sbc_HL_DE
  | .hl => .sbc_HL_HL
  | .sp => .sbc_HL_SP

/-- INC r (R191), by its operands. -/
def Instr.incR (r : Reg8) : Instr :=
  match r with
  | .b => .inc_B
  | .c => .inc_C
  | .d => .inc_D
  | .e => .inc_E
  | .h => .inc_H
  | .l => .inc_L
  | .a => .inc_A

/-- DEC r (R192), by its operands. -/
def Instr.decR (r : Reg8) : Instr :=
  match r with
  | .b => .dec_B
  | .c => .dec_C
  | .d => .dec_D
  | .e => .dec_E
  | .h => .dec_H
  | .l => .dec_L
  | .a => .dec_A

/-- INC ss (R193), by its operands. -/
def Instr.incSS (ss : RegDD) : Instr :=
  match ss with
  | .bc => .inc_BC
  | .de => .inc_DE
  | .hl => .inc_HL
  | .sp => .inc_SP

/-- DEC ss (R194), by its operands. -/
def Instr.decSS (ss : RegDD) : Instr :=
  match ss with
  | .bc => .dec_BC
  | .de => .dec_DE
  | .hl => .dec_HL
  | .sp => .dec_SP

/-- JP cc,nn (R202), by its operands. -/
def Instr.jpCC (cc : Cond) (nn : Word) : Instr :=
  match cc with
  | .nz => .jp_NZ_nn nn
  | .z => .jp_Z_nn nn
  | .nc => .jp_NC_nn nn
  | .c => .jp_C_nn nn

/-- JR cc,e (R204), by its operands. -/
def Instr.jrCC (cc : Cond) (e : Byte) : Instr :=
  match cc with
  | .nz => .jr_NZ_e e
  | .z => .jr_Z_e e
  | .nc => .jr_NC_e e
  | .c => .jr_C_e e

/-- PUSH qq (R218), by its operands. -/
def Instr.push (qq : RegQQ) : Instr :=
  match qq with
  | .bc => .push_BC
  | .de => .push_DE
  | .hl => .push_HL
  | .af => .push_AF

/-- POP qq (R219), by its operands. -/
def Instr.pop (qq : RegQQ) : Instr :=
  match qq with
  | .bc => .pop_BC
  | .de => .pop_DE
  | .hl => .pop_HL
  | .af => .pop_AF

/-- IM 0, IM 1, IM 2 (R228, R229, R230), by its operands. -/
def Instr.im (m : IntModeNum) : Instr :=
  match m with
  | .mode0 => .im_0
  | .mode1 => .im_1
  | .mode2 => .im_2

/-- RST p (R241), by its operands. -/
def Instr.rst (t : RstTarget) : Instr :=
  match t with
  | .to00 => .rst_00h
  | .to08 => .rst_08h
  | .to10 => .rst_10h
  | .to18 => .rst_18h
  | .to20 => .rst_20h
  | .to28 => .rst_28h
  | .to30 => .rst_30h
  | .to38 => .rst_38h

end Sys2Proof
end

