-- ==== Sys2Proof/Machine/Operands.lean ====
section
/-!
DEFINITION. The operand forms: 8-bit registers, pairs and SP, PUSH and POP pairs, RST targets (00_scope R8, 10_state R22,
30_encoding R94 to R96).
-/

namespace Sys2Proof.Machine

/-- `R8[code]` (R94). -/
def State.get8 (s : State) (r : Reg8) : Byte :=
  match r with
  | .b => s.b
  | .c => s.c
  | .d => s.d
  | .e => s.e
  | .h => s.h
  | .l => s.l
  | .a => s.a

/-- `R8[code] <- v` (R94). -/
def State.set8 (s : State) (r : Reg8) (v : Byte) : State :=
  match r with
  | .b => { s with b := v }
  | .c => { s with c := v }
  | .d => { s with d := v }
  | .e => { s with e := v }
  | .h => { s with h := v }
  | .l => { s with l := v }
  | .a => { s with a := v }

/-- `R16dd[code]`: a pair with its first register as the high byte, or SP (R22, R95). -/
def State.getDD (s : State) (r : RegDD) : Word :=
  match r with
  | .bc => wordOf s.b s.c
  | .de => wordOf s.d s.e
  | .hl => wordOf s.h s.l
  | .sp => s.sp

/-- `R16dd[code] <- v` (R8, R95). -/
def State.setDD (s : State) (r : RegDD) (v : Word) : State :=
  match r with
  | .bc => { s with b := hiByte v, c := loByte v }
  | .de => { s with d := hiByte v, e := loByte v }
  | .hl => { s with h := hiByte v, l := loByte v }
  | .sp => { s with sp := v }

/-- `R16qq[code]`; AF is A and all eight bits of F (R8, R96). -/
def State.getQQ (s : State) (r : RegQQ) : Word :=
  match r with
  | .bc => wordOf s.b s.c
  | .de => wordOf s.d s.e
  | .hl => wordOf s.h s.l
  | .af => wordOf s.a s.f

/-- `R16qq[code] <- v` (R8, R96). -/
def State.setQQ (s : State) (r : RegQQ) (v : Word) : State :=
  match r with
  | .bc => { s with b := hiByte v, c := loByte v }
  | .de => { s with d := hiByte v, e := loByte v }
  | .hl => { s with h := hiByte v, l := loByte v }
  | .af => { s with a := hiByte v, f := loByte v }

/-- The address an RST goes to (R241). -/
def rstAddress (t : RstTarget) : Word :=
  match t with
  | .to00 => 0x0000
  | .to08 => 0x0008
  | .to10 => 0x0010
  | .to18 => 0x0018
  | .to20 => 0x0020
  | .to28 => 0x0028
  | .to30 => 0x0030
  | .to38 => 0x0038

end Sys2Proof.Machine
end

