-- ==== Sys2Proof/Machine/Flags.lean ====
section
/-!
DEFINITION. The flags and every flag computation: the bits of F (10_state R25, R27), the conditions (30_encoding R97), the
8-bit ALU (42_arith8 R150) and the 16-bit adder (43_arith16 R180). Operands are taken to integers, the exact result is
computed, and narrowed at the end.
-/

namespace Sys2Proof.Machine

/-- `ZF = F[6]` (R8, R25). -/
def flagZ (f : Byte) : Bool := f.getLsbD 6

/-- `CF = F[0]` (R8, R25). -/
def flagC (f : Byte) : Bool := f.getLsbD 0

/-- `ZF <- z`: bit 6 written, the other seven bits as they were (R8, R27). -/
def writeZ (f : Byte) (z : Bool) : Byte := (f &&& 0xBF) ||| (if z then 0x40 else 0x00)

/-- `CF <- c`: bit 0 written, the other seven bits as they were (R8, R27). -/
def writeC (f : Byte) (c : Bool) : Byte := (f &&& 0xFE) ||| (if c then 0x01 else 0x00)

/-- `ZF <- z; CF <- c` (R150). -/
def writeZC (f : Byte) (z c : Bool) : Byte := writeC (writeZ f z) c

/-- `cond(cc)` on the bits of F (R97). -/
def condHolds (cc : Cond) (f : Byte) : Bool :=
  match cc with
  | .nz => !flagZ f
  | .z => flagZ f
  | .nc => !flagC f
  | .c => flagC f

/-- A result of width `w` with its two flag values (R150, R180). -/
structure AluResult (w : Nat) where
  res : BitVec w
  carry : Bool
  zero : Bool
deriving DecidableEq, Repr

/-- A flag as the number 0 or 1 (R7). -/
def bit (c : Bool) : Nat := if c then 1 else 0

/-- The exact sum, its carry and its zero test, at width `w` (R150 for 8, R180 for 16). -/
def addWith (w : Nat) (x y : BitVec w) (c : Bool) : AluResult w :=
  let s : Nat := x.toNat + y.toNat + bit c
  let res := BitVec.ofNat w s
  ⟨res, decide (2 ^ w ≤ s), res == 0⟩

/-- The exact difference, its borrow and its zero test, at width `w` (R150 for 8, R180 for 16). -/
def subWith (w : Nat) (x y : BitVec w) (c : Bool) : AluResult w :=
  let d : Int := (x.toNat : Int) - (y.toNat : Int) - (bit c : Int)
  let res := BitVec.ofInt w d
  ⟨res, decide (d < 0), res == 0⟩

/-- `add8(a, b, c)` (R150). -/
def add8 (x y : Byte) (c : Bool) : AluResult 8 := addWith 8 x y c

/-- `sub8(a, b, c)`; carry is the borrow (R150). -/
def sub8 (x y : Byte) (c : Bool) : AluResult 8 := subWith 8 x y c

/-- `and8(a, b)` (R150). -/
def and8 (x y : Byte) : AluResult 8 := ⟨x &&& y, false, (x &&& y) == 0⟩

/-- `xor8(a, b)` (R150). -/
def xor8 (x y : Byte) : AluResult 8 := ⟨x ^^^ y, false, (x ^^^ y) == 0⟩

/-- `or8(a, b)` (R150). -/
def or8 (x y : Byte) : AluResult 8 := ⟨x ||| y, false, (x ||| y) == 0⟩

/-- `add16(a, b, c)` (R180). -/
def add16 (x y : Word) (c : Bool) : AluResult 16 := addWith 16 x y c

/-- `sub16(a, b, c)`; carry is the borrow (R180). -/
def sub16 (x y : Word) (c : Bool) : AluResult 16 := subWith 16 x y c

/-- The result of an 8-bit operation on A and an operand; ADC and SBC take the carry flag in (R98, R151 to R166). -/
def aluCompute (op : AluOp) (a x : Byte) (cf : Bool) : AluResult 8 :=
  match op with
  | .add => add8 a x false
  | .adc => add8 a x cf
  | .sub => sub8 a x false
  | .sbc => sub8 a x cf
  | .and => and8 a x
  | .xor => xor8 a x
  | .or => or8 a x
  | .cp => sub8 a x false

end Sys2Proof.Machine
end

