-- ==== Sys2Proof/Machine/Arith16.lean ====
section
/-!
DEFINITION. 16-bit arithmetic (43_arith16). The destination is HL; the source is read before HL is written (R180).
-/

namespace Sys2Proof.Machine

/-- ADD HL,ss: Carry only, Zero is not changed (R181). -/
def addHL (ss : RegDD) (s : State) : Out :=
  let r := add16 (s.getDD .hl) (s.getDD ss) false
  .next (((s.setDD .hl r.res).setF (writeC s.f r.carry)).addCycles s.config.cyc.addHLSS)

/-- ADC HL,ss: with the carry flag, Zero and Carry (R182). -/
def adcHL (ss : RegDD) (s : State) : Out :=
  let r := add16 (s.getDD .hl) (s.getDD ss) (flagC s.f)
  .next (((s.setDD .hl r.res).setF (writeZC s.f r.zero r.carry)).addCycles s.config.cyc.adcHLSS)

/-- SBC HL,ss: with the carry flag, Zero and Carry (R183). -/
def sbcHL (ss : RegDD) (s : State) : Out :=
  let r := sub16 (s.getDD .hl) (s.getDD ss) (flagC s.f)
  .next (((s.setDD .hl r.res).setF (writeZC s.f r.zero r.carry)).addCycles s.config.cyc.sbcHLSS)

/-- ADD HL,BC (R181). -/
def execAdd_HL_BC (s : State) : Out := addHL .bc s

/-- ADD HL,DE (R181). -/
def execAdd_HL_DE (s : State) : Out := addHL .de s

/-- ADD HL,HL (R181). -/
def execAdd_HL_HL (s : State) : Out := addHL .hl s

/-- ADD HL,SP (R181). -/
def execAdd_HL_SP (s : State) : Out := addHL .sp s

/-- SBC HL,BC (R183). -/
def execSbc_HL_BC (s : State) : Out := sbcHL .bc s

/-- ADC HL,BC (R182). -/
def execAdc_HL_BC (s : State) : Out := adcHL .bc s

/-- SBC HL,DE (R183). -/
def execSbc_HL_DE (s : State) : Out := sbcHL .de s

/-- ADC HL,DE (R182). -/
def execAdc_HL_DE (s : State) : Out := adcHL .de s

/-- SBC HL,HL (R183). -/
def execSbc_HL_HL (s : State) : Out := sbcHL .hl s

/-- ADC HL,HL (R182). -/
def execAdc_HL_HL (s : State) : Out := adcHL .hl s

/-- SBC HL,SP (R183). -/
def execSbc_HL_SP (s : State) : Out := sbcHL .sp s

/-- ADC HL,SP (R182). -/
def execAdc_HL_SP (s : State) : Out := adcHL .sp s

end Sys2Proof.Machine
end

