-- ==== Sys2Proof/Machine/Arith8.lean ====
section
/-!
DEFINITION. 8-bit arithmetic and logic (42_arith8). The first operand and, but for CP, the destination is A (R150).
-/

namespace Sys2Proof.Machine

/-- A and the two flags after an operation; CP leaves A (R150, R165). -/
def aluApply (op : AluOp) (x : Byte) (s : State) : State :=
  let r := aluCompute op s.a x (flagC s.f)
  let s := s.setF (writeZC s.f r.zero r.carry)
  match op with
  | .cp => s
  | _ => s.set8 .a r.res

/-- The register form `10 yyy zzz`: the operand is `R8[z]` (R150). -/
def aluReg (op : AluOp) (r : Reg8) (s : State) : Out :=
  .next ((aluApply op (s.get8 r) s).addCycles s.config.cyc.aluR)

/-- The immediate form `11 yyy 110 n`: the operand is `n` (R150). -/
def aluImm (op : AluOp) (n : Byte) (s : State) : Out :=
  .next ((aluApply op n s).addCycles s.config.cyc.aluN)

/-- ADD A,B (R151). -/
def execAdd_A_B (s : State) : Out := aluReg .add .b s

/-- ADD A,C (R151). -/
def execAdd_A_C (s : State) : Out := aluReg .add .c s

/-- ADD A,D (R151). -/
def execAdd_A_D (s : State) : Out := aluReg .add .d s

/-- ADD A,E (R151). -/
def execAdd_A_E (s : State) : Out := aluReg .add .e s

/-- ADD A,H (R151). -/
def execAdd_A_H (s : State) : Out := aluReg .add .h s

/-- ADD A,L (R151). -/
def execAdd_A_L (s : State) : Out := aluReg .add .l s

/-- ADD A,A (R151). -/
def execAdd_A_A (s : State) : Out := aluReg .add .a s

/-- ADC A,B (R153). -/
def execAdc_A_B (s : State) : Out := aluReg .adc .b s

/-- ADC A,C (R153). -/
def execAdc_A_C (s : State) : Out := aluReg .adc .c s

/-- ADC A,D (R153). -/
def execAdc_A_D (s : State) : Out := aluReg .adc .d s

/-- ADC A,E (R153). -/
def execAdc_A_E (s : State) : Out := aluReg .adc .e s

/-- ADC A,H (R153). -/
def execAdc_A_H (s : State) : Out := aluReg .adc .h s

/-- ADC A,L (R153). -/
def execAdc_A_L (s : State) : Out := aluReg .adc .l s

/-- ADC A,A (R153). -/
def execAdc_A_A (s : State) : Out := aluReg .adc .a s

/-- SUB B (R155). -/
def execSub_B (s : State) : Out := aluReg .sub .b s

/-- SUB C (R155). -/
def execSub_C (s : State) : Out := aluReg .sub .c s

/-- SUB D (R155). -/
def execSub_D (s : State) : Out := aluReg .sub .d s

/-- SUB E (R155). -/
def execSub_E (s : State) : Out := aluReg .sub .e s

/-- SUB H (R155). -/
def execSub_H (s : State) : Out := aluReg .sub .h s

/-- SUB L (R155). -/
def execSub_L (s : State) : Out := aluReg .sub .l s

/-- SUB A (R155). -/
def execSub_A (s : State) : Out := aluReg .sub .a s

/-- SBC A,B (R157). -/
def execSbc_A_B (s : State) : Out := aluReg .sbc .b s

/-- SBC A,C (R157). -/
def execSbc_A_C (s : State) : Out := aluReg .sbc .c s

/-- SBC A,D (R157). -/
def execSbc_A_D (s : State) : Out := aluReg .sbc .d s

/-- SBC A,E (R157). -/
def execSbc_A_E (s : State) : Out := aluReg .sbc .e s

/-- SBC A,H (R157). -/
def execSbc_A_H (s : State) : Out := aluReg .sbc .h s

/-- SBC A,L (R157). -/
def execSbc_A_L (s : State) : Out := aluReg .sbc .l s

/-- SBC A,A (R157). -/
def execSbc_A_A (s : State) : Out := aluReg .sbc .a s

/-- AND B (R159). -/
def execAnd_B (s : State) : Out := aluReg .and .b s

/-- AND C (R159). -/
def execAnd_C (s : State) : Out := aluReg .and .c s

/-- AND D (R159). -/
def execAnd_D (s : State) : Out := aluReg .and .d s

/-- AND E (R159). -/
def execAnd_E (s : State) : Out := aluReg .and .e s

/-- AND H (R159). -/
def execAnd_H (s : State) : Out := aluReg .and .h s

/-- AND L (R159). -/
def execAnd_L (s : State) : Out := aluReg .and .l s

/-- AND A (R159). -/
def execAnd_A (s : State) : Out := aluReg .and .a s

/-- XOR B (R161). -/
def execXor_B (s : State) : Out := aluReg .xor .b s

/-- XOR C (R161). -/
def execXor_C (s : State) : Out := aluReg .xor .c s

/-- XOR D (R161). -/
def execXor_D (s : State) : Out := aluReg .xor .d s

/-- XOR E (R161). -/
def execXor_E (s : State) : Out := aluReg .xor .e s

/-- XOR H (R161). -/
def execXor_H (s : State) : Out := aluReg .xor .h s

/-- XOR L (R161). -/
def execXor_L (s : State) : Out := aluReg .xor .l s

/-- XOR A (R161). -/
def execXor_A (s : State) : Out := aluReg .xor .a s

/-- OR B (R163). -/
def execOr_B (s : State) : Out := aluReg .or .b s

/-- OR C (R163). -/
def execOr_C (s : State) : Out := aluReg .or .c s

/-- OR D (R163). -/
def execOr_D (s : State) : Out := aluReg .or .d s

/-- OR E (R163). -/
def execOr_E (s : State) : Out := aluReg .or .e s

/-- OR H (R163). -/
def execOr_H (s : State) : Out := aluReg .or .h s

/-- OR L (R163). -/
def execOr_L (s : State) : Out := aluReg .or .l s

/-- OR A (R163). -/
def execOr_A (s : State) : Out := aluReg .or .a s

/-- CP B (R165). -/
def execCp_B (s : State) : Out := aluReg .cp .b s

/-- CP C (R165). -/
def execCp_C (s : State) : Out := aluReg .cp .c s

/-- CP D (R165). -/
def execCp_D (s : State) : Out := aluReg .cp .d s

/-- CP E (R165). -/
def execCp_E (s : State) : Out := aluReg .cp .e s

/-- CP H (R165). -/
def execCp_H (s : State) : Out := aluReg .cp .h s

/-- CP L (R165). -/
def execCp_L (s : State) : Out := aluReg .cp .l s

/-- CP A (R165). -/
def execCp_A (s : State) : Out := aluReg .cp .a s

/-- ADD A,n (R152). -/
def execAdd_A_n (n : Byte) (s : State) : Out := aluImm .add n s

/-- ADC A,n (R154). -/
def execAdc_A_n (n : Byte) (s : State) : Out := aluImm .adc n s

/-- SUB n (R156). -/
def execSub_n (n : Byte) (s : State) : Out := aluImm .sub n s

/-- SBC A,n (R158). -/
def execSbc_A_n (n : Byte) (s : State) : Out := aluImm .sbc n s

/-- AND n (R160). -/
def execAnd_n (n : Byte) (s : State) : Out := aluImm .and n s

/-- XOR n (R162). -/
def execXor_n (n : Byte) (s : State) : Out := aluImm .xor n s

/-- OR n (R164). -/
def execOr_n (n : Byte) (s : State) : Out := aluImm .or n s

/-- CP n (R166). -/
def execCp_n (n : Byte) (s : State) : Out := aluImm .cp n s

end Sys2Proof.Machine
end

