-- ==== Sys2Proof/Machine/IncDec.lean ====
section
/-!
DEFINITION. Increment and decrement (44_incdec). The 8-bit forms write Zero and leave Carry, the 16-bit forms write no flag.
-/

namespace Sys2Proof.Machine

/-- INC r: `res <- (R8[y] + 1) mod 256; R8[y] <- res; ZF <- (res = 0)` (R191). -/
def incReg (r : Reg8) (s : State) : Out :=
  let res := s.get8 r + 1
  .next (((s.set8 r res).setF (writeZ s.f (res == 0))).addCycles s.config.cyc.incR)

/-- DEC r: `res <- (R8[y] - 1) mod 256; R8[y] <- res; ZF <- (res = 0)` (R192). -/
def decReg (r : Reg8) (s : State) : Out :=
  let res := s.get8 r - 1
  .next (((s.set8 r res).setF (writeZ s.f (res == 0))).addCycles s.config.cyc.decR)

/-- INC ss: `R16dd[p] <- (R16dd[p] + 1) mod 65536` (R193). -/
def incPair (ss : RegDD) (s : State) : Out :=
  .next ((s.setDD ss (s.getDD ss + 1)).addCycles s.config.cyc.incSS)

/-- DEC ss: `R16dd[p] <- (R16dd[p] - 1) mod 65536` (R194). -/
def decPair (ss : RegDD) (s : State) : Out :=
  .next ((s.setDD ss (s.getDD ss - 1)).addCycles s.config.cyc.decSS)

/-- INC BC (R193). -/
def execInc_BC (s : State) : Out := incPair .bc s

/-- INC B (R191). -/
def execInc_B (s : State) : Out := incReg .b s

/-- DEC B (R192). -/
def execDec_B (s : State) : Out := decReg .b s

/-- DEC BC (R194). -/
def execDec_BC (s : State) : Out := decPair .bc s

/-- INC C (R191). -/
def execInc_C (s : State) : Out := incReg .c s

/-- DEC C (R192). -/
def execDec_C (s : State) : Out := decReg .c s

/-- INC DE (R193). -/
def execInc_DE (s : State) : Out := incPair .de s

/-- INC D (R191). -/
def execInc_D (s : State) : Out := incReg .d s

/-- DEC D (R192). -/
def execDec_D (s : State) : Out := decReg .d s

/-- DEC DE (R194). -/
def execDec_DE (s : State) : Out := decPair .de s

/-- INC E (R191). -/
def execInc_E (s : State) : Out := incReg .e s

/-- DEC E (R192). -/
def execDec_E (s : State) : Out := decReg .e s

/-- INC HL (R193). -/
def execInc_HL (s : State) : Out := incPair .hl s

/-- INC H (R191). -/
def execInc_H (s : State) : Out := incReg .h s

/-- DEC H (R192). -/
def execDec_H (s : State) : Out := decReg .h s

/-- DEC HL (R194). -/
def execDec_HL (s : State) : Out := decPair .hl s

/-- INC L (R191). -/
def execInc_L (s : State) : Out := incReg .l s

/-- DEC L (R192). -/
def execDec_L (s : State) : Out := decReg .l s

/-- INC SP (R193). -/
def execInc_SP (s : State) : Out := incPair .sp s

/-- DEC SP (R194). -/
def execDec_SP (s : State) : Out := decPair .sp s

/-- INC A (R191). -/
def execInc_A (s : State) : Out := incReg .a s

/-- DEC A (R192). -/
def execDec_A (s : State) : Out := decReg .a s

end Sys2Proof.Machine
end

