-- ==== Sys2Proof/Machine/IntCtl.lean ====
section
/-!
DEFINITION. Interrupt-control instructions (47_intctl). Each triggers one controller operation; none changes a flag or a
general register, and all are always permitted (R225, R286).
-/

namespace Sys2Proof.Machine

/-- EI: `EnableInterrupts()` (R226). -/
def enableInt (s : State) : Out :=
  .next ((enableInterrupts s).addCycles s.config.cyc.ei)

/-- DI: `DisableInterrupts()` (R227). -/
def disableInt (s : State) : Out :=
  .next ((disableInterrupts s).addCycles s.config.cyc.di)

/-- IM m: `SetInterruptMode(m)` (R228, R229, R230). -/
def selectMode (m : IntMode) (s : State) : Out :=
  .next ((setInterruptMode m s).addCycles s.config.cyc.im)

/-- RETI: `PC <- Pop16(); ReturnFromInterrupt()` (R231). -/
def returnMaskable (s : State) : Out :=
  .next ((returnFromInterrupt (popPC s)).addCycles s.config.cyc.reti)

/-- RETN: `PC <- Pop16(); ReturnFromNonMaskableInterrupt()` (R232). -/
def returnNonMaskable (s : State) : Out :=
  .next ((returnFromNonMaskableInterrupt (popPC s)).addCycles s.config.cyc.retn)

/-- DI (R227). -/
def execDi (s : State) : Out := disableInt s

/-- EI (R226). -/
def execEi (s : State) : Out := enableInt s

/-- RETN (R232). -/
def execRetn (s : State) : Out := returnNonMaskable s

/-- IM 0 (R228). -/
def execIm_0 (s : State) : Out := selectMode .mode0 s

/-- RETI (R231). -/
def execReti (s : State) : Out := returnMaskable s

/-- IM 1 (R229). -/
def execIm_1 (s : State) : Out := selectMode .mode1 s

/-- IM 2 (R230). -/
def execIm_2 (s : State) : Out := selectMode .mode2 s

end Sys2Proof.Machine
end

