-- ==== Sys2Proof/Machine/Jumps.lean ====
section
/-!
DEFINITION. Jumps (45_jumps). A jump writes PC and Cycles and nothing else (R200). The PC of the state is already the
address of the byte after the instruction (R24), so both operand bytes are consumed whether or not a jump is taken.
-/

namespace Sys2Proof.Machine

/-- JP nn: `PC <- nn` (R201). -/
def jumpAbs (nn : Word) (s : State) : Out :=
  .next ((s.setPC nn).addCycles s.config.cyc.jp)

/-- JP cc,nn: `if cond(cc) then PC <- nn`, one cost taken or not (R202). -/
def jumpAbsIf (cc : Cond) (nn : Word) (s : State) : Out :=
  .next ((if condHolds cc s.f then s.setPC nn else s).addCycles s.config.cyc.jpCC)

/-- `PC <- (PC + sext_16(e)) mod 65536`, PC being the address after the instruction (R203). -/
def branchBy (e : Byte) (s : State) : State := s.setPC (s.pc + sext16 e)

/-- JR e (R203). -/
def jumpRel (e : Byte) (s : State) : Out :=
  .next ((branchBy e s).addCycles s.config.cyc.jr)

/-- JR cc,e: taken and not taken have different costs (R204). -/
def jumpRelIf (cc : Cond) (e : Byte) (s : State) : Out :=
  if condHolds cc s.f then .next ((branchBy e s).addCycles s.config.cyc.jrCCTaken)
  else .next (s.addCycles s.config.cyc.jrCCNot)

/-- JR e (R203). -/
def execJr_e (e : Byte) (s : State) : Out := jumpRel e s

/-- JR NZ,e (R204). -/
def execJr_NZ_e (e : Byte) (s : State) : Out := jumpRelIf .nz e s

/-- JR Z,e (R204). -/
def execJr_Z_e (e : Byte) (s : State) : Out := jumpRelIf .z e s

/-- JR NC,e (R204). -/
def execJr_NC_e (e : Byte) (s : State) : Out := jumpRelIf .nc e s

/-- JR C,e (R204). -/
def execJr_C_e (e : Byte) (s : State) : Out := jumpRelIf .c e s

/-- JP NZ,nn (R202). -/
def execJp_NZ_nn (nn : Word) (s : State) : Out := jumpAbsIf .nz nn s

/-- JP nn (R201). -/
def execJp_nn (nn : Word) (s : State) : Out := jumpAbs nn s

/-- JP Z,nn (R202). -/
def execJp_Z_nn (nn : Word) (s : State) : Out := jumpAbsIf .z nn s

/-- JP NC,nn (R202). -/
def execJp_NC_nn (nn : Word) (s : State) : Out := jumpAbsIf .nc nn s

/-- JP C,nn (R202). -/
def execJp_C_nn (nn : Word) (s : State) : Out := jumpAbsIf .c nn s

end Sys2Proof.Machine
end

