-- ==== Sys2Proof/Machine/Loads.lean ====
section
/-!
DEFINITION. Load instructions (41_loads). No load changes a flag or touches memory beyond its own bytes (R140).
-/

namespace Sys2Proof.Machine

/-- LD r,r': `R8[y] <- R8[z]` (R141). -/
def loadReg (r r2 : Reg8) (s : State) : Out :=
  .next ((s.set8 r (s.get8 r2)).addCycles s.config.cyc.ldRR)

/-- LD r,n: `R8[y] <- n` (R142). -/
def loadImm8 (r : Reg8) (n : Byte) (s : State) : Out :=
  .next ((s.set8 r n).addCycles s.config.cyc.ldRN)

/-- LD dd,nn: `R16dd[p] <- nn` (R143). -/
def loadImm16 (dd : RegDD) (nn : Word) (s : State) : Out :=
  .next ((s.setDD dd nn).addCycles s.config.cyc.ldDDNN)

/-- LD SP,HL: `SP <- H:L` (R144). -/
def loadSPHL (s : State) : Out :=
  .next ((s.setSP (s.getDD .hl)).addCycles s.config.cyc.ldSPHL)

/-- LD BC,nn (R143). -/
def execLd_BC_nn (nn : Word) (s : State) : Out := loadImm16 .bc nn s

/-- LD B,n (R142). -/
def execLd_B_n (n : Byte) (s : State) : Out := loadImm8 .b n s

/-- LD C,n (R142). -/
def execLd_C_n (n : Byte) (s : State) : Out := loadImm8 .c n s

/-- LD DE,nn (R143). -/
def execLd_DE_nn (nn : Word) (s : State) : Out := loadImm16 .de nn s

/-- LD D,n (R142). -/
def execLd_D_n (n : Byte) (s : State) : Out := loadImm8 .d n s

/-- LD E,n (R142). -/
def execLd_E_n (n : Byte) (s : State) : Out := loadImm8 .e n s

/-- LD HL,nn (R143). -/
def execLd_HL_nn (nn : Word) (s : State) : Out := loadImm16 .hl nn s

/-- LD H,n (R142). -/
def execLd_H_n (n : Byte) (s : State) : Out := loadImm8 .h n s

/-- LD L,n (R142). -/
def execLd_L_n (n : Byte) (s : State) : Out := loadImm8 .l n s

/-- LD SP,nn (R143). -/
def execLd_SP_nn (nn : Word) (s : State) : Out := loadImm16 .sp nn s

/-- LD A,n (R142). -/
def execLd_A_n (n : Byte) (s : State) : Out := loadImm8 .a n s

/-- LD B,B (R141). -/
def execLd_B_B (s : State) : Out := loadReg .b .b s

/-- LD B,C (R141). -/
def execLd_B_C (s : State) : Out := loadReg .b .c s

/-- LD B,D (R141). -/
def execLd_B_D (s : State) : Out := loadReg .b .d s

/-- LD B,E (R141). -/
def execLd_B_E (s : State) : Out := loadReg .b .e s

/-- LD B,H (R141). -/
def execLd_B_H (s : State) : Out := loadReg .b .h s

/-- LD B,L (R141). -/
def execLd_B_L (s : State) : Out := loadReg .b .l s

/-- LD B,A (R141). -/
def execLd_B_A (s : State) : Out := loadReg .b .a s

/-- LD C,B (R141). -/
def execLd_C_B (s : State) : Out := loadReg .c .b s

/-- LD C,C (R141). -/
def execLd_C_C (s : State) : Out := loadReg .c .c s

/-- LD C,D (R141). -/
def execLd_C_D (s : State) : Out := loadReg .c .d s

/-- LD C,E (R141). -/
def execLd_C_E (s : State) : Out := loadReg .c .e s

/-- LD C,H (R141). -/
def execLd_C_H (s : State) : Out := loadReg .c .h s

/-- LD C,L (R141). -/
def execLd_C_L (s : State) : Out := loadReg .c .l s

/-- LD C,A (R141). -/
def execLd_C_A (s : State) : Out := loadReg .c .a s

/-- LD D,B (R141). -/
def execLd_D_B (s : State) : Out := loadReg .d .b s

/-- LD D,C (R141). -/
def execLd_D_C (s : State) : Out := loadReg .d .c s

/-- LD D,D (R141). -/
def execLd_D_D (s : State) : Out := loadReg .d .d s

/-- LD D,E (R141). -/
def execLd_D_E (s : State) : Out := loadReg .d .e s

/-- LD D,H (R141). -/
def execLd_D_H (s : State) : Out := loadReg .d .h s

/-- LD D,L (R141). -/
def execLd_D_L (s : State) : Out := loadReg .d .l s

/-- LD D,A (R141). -/
def execLd_D_A (s : State) : Out := loadReg .d .a s

/-- LD E,B (R141). -/
def execLd_E_B (s : State) : Out := loadReg .e .b s

/-- LD E,C (R141). -/
def execLd_E_C (s : State) : Out := loadReg .e .c s

/-- LD E,D (R141). -/
def execLd_E_D (s : State) : Out := loadReg .e .d s

/-- LD E,E (R141). -/
def execLd_E_E (s : State) : Out := loadReg .e .e s

/-- LD E,H (R141). -/
def execLd_E_H (s : State) : Out := loadReg .e .h s

/-- LD E,L (R141). -/
def execLd_E_L (s : State) : Out := loadReg .e .l s

/-- LD E,A (R141). -/
def execLd_E_A (s : State) : Out := loadReg .e .a s

/-- LD H,B (R141). -/
def execLd_H_B (s : State) : Out := loadReg .h .b s

/-- LD H,C (R141). -/
def execLd_H_C (s : State) : Out := loadReg .h .c s

/-- LD H,D (R141). -/
def execLd_H_D (s : State) : Out := loadReg .h .d s

/-- LD H,E (R141). -/
def execLd_H_E (s : State) : Out := loadReg .h .e s

/-- LD H,H (R141). -/
def execLd_H_H (s : State) : Out := loadReg .h .h s

/-- LD H,L (R141). -/
def execLd_H_L (s : State) : Out := loadReg .h .l s

/-- LD H,A (R141). -/
def execLd_H_A (s : State) : Out := loadReg .h .a s

/-- LD L,B (R141). -/
def execLd_L_B (s : State) : Out := loadReg .l .b s

/-- LD L,C (R141). -/
def execLd_L_C (s : State) : Out := loadReg .l .c s

/-- LD L,D (R141). -/
def execLd_L_D (s : State) : Out := loadReg .l .d s

/-- LD L,E (R141). -/
def execLd_L_E (s : State) : Out := loadReg .l .e s

/-- LD L,H (R141). -/
def execLd_L_H (s : State) : Out := loadReg .l .h s

/-- LD L,L (R141). -/
def execLd_L_L (s : State) : Out := loadReg .l .l s

/-- LD L,A (R141). -/
def execLd_L_A (s : State) : Out := loadReg .l .a s

/-- LD A,B (R141). -/
def execLd_A_B (s : State) : Out := loadReg .a .b s

/-- LD A,C (R141). -/
def execLd_A_C (s : State) : Out := loadReg .a .c s

/-- LD A,D (R141). -/
def execLd_A_D (s : State) : Out := loadReg .a .d s

/-- LD A,E (R141). -/
def execLd_A_E (s : State) : Out := loadReg .a .e s

/-- LD A,H (R141). -/
def execLd_A_H (s : State) : Out := loadReg .a .h s

/-- LD A,L (R141). -/
def execLd_A_L (s : State) : Out := loadReg .a .l s

/-- LD A,A (R141). -/
def execLd_A_A (s : State) : Out := loadReg .a .a s

/-- LD SP,HL (R144). -/
def execLd_SP_HL (s : State) : Out := loadSPHL s

end Sys2Proof.Machine
end

