-- ==== Sys2Proof/Machine/RstHalt.lean ====
section
/-!
DEFINITION. RST and HALT (48_rst_halt), and NOP (40_engine_step R130).
-/

namespace Sys2Proof.Machine

/-- NOP: nothing but its cost (R130). -/
def noOperation (s : State) : Out :=
  .next (s.addCycles s.config.cyc.nop)

/-- RST p: `Push16(PC); PC <- p`, the pushed PC being the address after the RST (R241). -/
def restart (t : RstTarget) (s : State) : Out :=
  .next (((s.push16 s.pc).setPC (rstAddress t)).addCycles s.config.cyc.rst)

/-- HALT: `Halted <- true`, PC staying after the HALT (R242). -/
def haltEngine (s : State) : Out :=
  .next ((s.setHalted true).addCycles s.config.cyc.halt)

/-- NOP (R130). -/
def execNop (s : State) : Out := noOperation s

/-- HALT (R242). -/
def execHalt (s : State) : Out := haltEngine s

/-- RST 00h (R241). -/
def execRst_00h (s : State) : Out := restart .to00 s

/-- RST 08h (R241). -/
def execRst_08h (s : State) : Out := restart .to08 s

/-- RST 10h (R241). -/
def execRst_10h (s : State) : Out := restart .to10 s

/-- RST 18h (R241). -/
def execRst_18h (s : State) : Out := restart .to18 s

/-- RST 20h (R241). -/
def execRst_20h (s : State) : Out := restart .to20 s

/-- RST 28h (R241). -/
def execRst_28h (s : State) : Out := restart .to28 s

/-- RST 30h (R241). -/
def execRst_30h (s : State) : Out := restart .to30 s

/-- RST 38h (R241). -/
def execRst_38h (s : State) : Out := restart .to38 s

end Sys2Proof.Machine
end

