-- ==== Sys2Proof/Machine/Stack.lean ====
section
/-!
DEFINITION. Stack push and pop (46_stack).
-/

namespace Sys2Proof.Machine

/-- PUSH qq: `Push16(R16qq[p])`; for AF all eight bits of F are the low byte (R218). -/
def pushPair (qq : RegQQ) (s : State) : Out :=
  .next ((s.push16 (s.getQQ qq)).addCycles s.config.cyc.push)

/-- POP qq: `R16qq[p] <- Pop16()`; POP AF writes all eight bits of F (R219). -/
def popPair (qq : RegQQ) (s : State) : Out :=
  let popped := s.pop16
  .next ((popped.2.setQQ qq popped.1).addCycles s.config.cyc.pop)

/-- POP BC (R219). -/
def execPop_BC (s : State) : Out := popPair .bc s

/-- PUSH BC (R218). -/
def execPush_BC (s : State) : Out := pushPair .bc s

/-- POP DE (R219). -/
def execPop_DE (s : State) : Out := popPair .de s

/-- PUSH DE (R218). -/
def execPush_DE (s : State) : Out := pushPair .de s

/-- POP HL (R219). -/
def execPop_HL (s : State) : Out := popPair .hl s

/-- PUSH HL (R218). -/
def execPush_HL (s : State) : Out := pushPair .hl s

/-- POP AF (R219). -/
def execPop_AF (s : State) : Out := popPair .af s

/-- PUSH AF (R218). -/
def execPush_AF (s : State) : Out := pushPair .af s

end Sys2Proof.Machine
end

