-- ==== Sys2Proof/Decode.lean ====
section
/-!
DEFINITION. The decoder, total on any bytes, and after it the encoder (30_encoding). The decoder reads the fields x, y,
z, p, q of R91 by the quadrants of R100 and the ED page of R102; the encoder is the opcode map R101, byte by byte.
-/

namespace Sys2Proof

/-- What the decoder answers. -/
inductive DecodeResult where
  /-- An instruction and the bytes after it. -/
  | ok (i : Instr) (rest : List Byte)
  /-- The first byte has no decode entry (R104). -/
  | unimplementedMain (op : Byte)
  /-- The byte after the prefix 0xED has no decode entry (R104). -/
  | unimplementedEd (op2 : Byte)
  /-- The bytes end inside an instruction. Never so for three bytes or more. -/
  | truncated
deriving DecidableEq, Repr

/-- A main-page entry: its format says which operand bytes follow (R90, R92). -/
inductive MainEntry where
  | op (i : Instr)
  | opN (f : Byte → Instr)
  | opE (f : Byte → Instr)
  | opNN (f : Word → Instr)

/-- R94; code 110 selects no register. -/
def Reg8.ofCode (code : Nat) : Option Reg8 :=
  match code with
  | 0 => some .b
  | 1 => some .c
  | 2 => some .d
  | 3 => some .e
  | 4 => some .h
  | 5 => some .l
  | 7 => some .a
  | _ => none

/-- R95, for a code below 4. -/
def RegDD.ofCode (code : Nat) : RegDD :=
  match code with
  | 0 => .bc
  | 1 => .de
  | 2 => .hl
  | _ => .sp

/-- R96, for a code below 4. -/
def RegQQ.ofCode (code : Nat) : RegQQ :=
  match code with
  | 0 => .bc
  | 1 => .de
  | 2 => .hl
  | _ => .af

/-- R97, for a code below 4. -/
def Cond.ofCode (code : Nat) : Cond :=
  match code with
  | 0 => .nz
  | 1 => .z
  | 2 => .nc
  | _ => .c

/-- R98, for a code below 8. -/
def AluOp.ofCode (code : Nat) : AluOp :=
  match code with
  | 0 => .add
  | 1 => .adc
  | 2 => .sub
  | 3 => .sbc
  | 4 => .and
  | 5 => .xor
  | 6 => .or
  | _ => .cp

/-- R241, for a code below 8: the target is 8 times the code. -/
def RstTarget.ofCode (code : Nat) : RstTarget :=
  match code with
  | 0 => .to00
  | 1 => .to08
  | 2 => .to10
  | 3 => .to18
  | 4 => .to20
  | 5 => .to28
  | 6 => .to30
  | _ => .to38

/-- Quadrant x = 00 (R100). -/
def decodeX0 (y z p q : Nat) : Option MainEntry :=
  match z with
  | 0 =>
    match y with
    | 0 => some (.op .nop)
    | 3 => some (.opE .jr_e)
    | 4 | 5 | 6 | 7 => some (.opE (Instr.jrCC (Cond.ofCode (y - 4))))
    | _ => none
  | 1 => if q = 0 then some (.opNN (Instr.ldDDNN (RegDD.ofCode p))) else some (.op (Instr.addHLSS (RegDD.ofCode p)))
  | 3 => if q = 0 then some (.op (Instr.incSS (RegDD.ofCode p))) else some (.op (Instr.decSS (RegDD.ofCode p)))
  | 4 => (Reg8.ofCode y).map fun r => .op (Instr.incR r)
  | 5 => (Reg8.ofCode y).map fun r => .op (Instr.decR r)
  | 6 => (Reg8.ofCode y).map fun r => .opN (Instr.ldRN r)
  | _ => none

/-- Quadrant x = 01: the register loads, with HALT where both codes are 110 (R100, R94). -/
def decodeX1 (y z : Nat) : Option MainEntry :=
  if y = 6 ∧ z = 6 then some (.op .halt)
  else (Reg8.ofCode y).bind fun r => (Reg8.ofCode z).map fun r2 => .op (Instr.ldRR r r2)

/-- Quadrant x = 10: the ALU operations on a register (R100). -/
def decodeX2 (y z : Nat) : Option MainEntry :=
  (Reg8.ofCode z).map fun r => .op (Instr.aluR (AluOp.ofCode y) r)

/-- Quadrant x = 11 (R100). The prefix 0xED is no entry: `decode` takes it first. -/
def decodeX3 (y z p q : Nat) : Option MainEntry :=
  match z with
  | 1 => if q = 0 then some (.op (Instr.pop (RegQQ.ofCode p))) else if p = 3 then some (.op .ld_SP_HL) else none
  | 2 => if y < 4 then some (.opNN (Instr.jpCC (Cond.ofCode y))) else none
  | 3 =>
    match y with
    | 0 => some (.opNN .jp_nn)
    | 6 => some (.op .di)
    | 7 => some (.op .ei)
    | _ => none
  | 5 => if q = 0 then some (.op (Instr.push (RegQQ.ofCode p))) else none
  | 6 => some (.opN (Instr.aluN (AluOp.ofCode y)))
  | 7 => some (.op (Instr.rst (RstTarget.ofCode y)))
  | _ => none

/-- The main page, by the fields of R91: x = op[7:6], y = op[5:3], z = op[2:0], p = op[5:4], q = op[3]. -/
def decodeMain (op : Byte) : Option MainEntry :=
  let n := op.toNat
  let y := n / 8 % 8
  let z := n % 8
  let p := n / 16 % 4
  let q := n / 8 % 2
  match n / 64 with
  | 0 => decodeX0 y z p q
  | 1 => decodeX1 y z
  | 2 => decodeX2 y z
  | _ => decodeX3 y z p q

/-- The ED page (R102): `01 pp0 010` is SBC, `01 pp1 010` is ADC, the others are fixed bytes. -/
def decodeEd (op2 : Byte) : Option Instr :=
  let n := op2.toNat
  let p := n / 16 % 4
  if n / 64 = 1 ∧ n % 16 = 2 then some (Instr.sbcHLSS (RegDD.ofCode p))
  else if n / 64 = 1 ∧ n % 16 = 10 then some (Instr.adcHLSS (RegDD.ofCode p))
  else if n = 0x45 then some .retn
  else if n = 0x4D then some .reti
  else if n = 0x46 then some (Instr.im .mode0)
  else if n = 0x56 then some (Instr.im .mode1)
  else if n = 0x5E then some (Instr.im .mode2)
  else none

/-- The instruction a list of bytes begins with (R92): the prefix 0xED first, else the main page, then the operand bytes
of the entry's format, low byte first for a word (R99). -/
def decode (bytes : List Byte) : DecodeResult :=
  match bytes with
  | [] => .truncated
  | op :: rest =>
    if op = 0xED then
      match rest with
      | [] => .truncated
      | op2 :: rest =>
        match decodeEd op2 with
        | some i => .ok i rest
        | none => .unimplementedEd op2
    else
      match decodeMain op with
      | none => .unimplementedMain op
      | some (.op i) => .ok i rest
      | some (.opN f) =>
        match rest with
        | n :: rest => .ok (f n) rest
        | [] => .truncated
      | some (.opE f) =>
        match rest with
        | e :: rest => .ok (f e) rest
        | [] => .truncated
      | some (.opNN f) =>
        match rest with
        | lo :: hi :: rest => .ok (f (Machine.wordOf hi lo)) rest
        | _ => .truncated

/-- The bytes of an instruction in fetch order, each opcode byte as the opcode map gives it (R101, R102) and operand
words low byte first (R65, R90). -/
def encode (i : Instr) : List Byte :=
  match i with
  | .nop => [0x00]
  | .ld_BC_nn nn => [0x01, Machine.loByte nn, Machine.hiByte nn]
  | .inc_BC => [0x03]
  | .inc_B => [0x04]
  | .dec_B => [0x05]
  | .ld_B_n n => [0x06, n]
  | .add_HL_BC => [0x09]
  | .dec_BC => [0x0B]
  | .inc_C => [0x0C]
  | .dec_C => [0x0D]
  | .ld_C_n n => [0x0E, n]
  | .ld_DE_nn nn => [0x11, Machine.loByte nn, Machine.hiByte nn]
  | .inc_DE => [0x13]
  | .inc_D => [0x14]
  | .dec_D => [0x15]
  | .ld_D_n n => [0x16, n]
  | .jr_e e => [0x18, e]
  | .add_HL_DE => [0x19]
  | .dec_DE => [0x1B]
  | .inc_E => [0x1C]
  | .dec_E => [0x1D]
  | .ld_E_n n => [0x1E, n]
  | .jr_NZ_e e => [0x20, e]
  | .ld_HL_nn nn => [0x21, Machine.loByte nn, Machine.hiByte nn]
  | .inc_HL => [0x23]
  | .inc_H => [0x24]
  | .dec_H => [0x25]
  | .ld_H_n n => [0x26, n]
  | .jr_Z_e e => [0x28, e]
  | .add_HL_HL => [0x29]
  | .dec_HL => [0x2B]
  | .inc_L => [0x2C]
  | .dec_L => [0x2D]
  | .ld_L_n n => [0x2E, n]
  | .jr_NC_e e => [0x30, e]
  | .ld_SP_nn nn => [0x31, Machine.loByte nn, Machine.hiByte nn]
  | .inc_SP => [0x33]
  | .jr_C_e e => [0x38, e]
  | .add_HL_SP => [0x39]
  | .dec_SP => [0x3B]
  | .inc_A => [0x3C]
  | .dec_A => [0x3D]
  | .ld_A_n n => [0x3E, n]
  | .ld_B_B => [0x40]
  | .ld_B_C => [0x41]
  | .ld_B_D => [0x42]
  | .ld_B_E => [0x43]
  | .ld_B_H => [0x44]
  | .ld_B_L => [0x45]
  | .ld_B_A => [0x47]
  | .ld_C_B => [0x48]
  | .ld_C_C => [0x49]
  | .ld_C_D => [0x4A]
  | .ld_C_E => [0x4B]
  | .ld_C_H => [0x4C]
  | .ld_C_L => [0x4D]
  | .ld_C_A => [0x4F]
  | .ld_D_B => [0x50]
  | .ld_D_C => [0x51]
  | .ld_D_D => [0x52]
  | .ld_D_E => [0x53]
  | .ld_D_H => [0x54]
  | .ld_D_L => [0x55]
  | .ld_D_A => [0x57]
  | .ld_E_B => [0x58]
  | .ld_E_C => [0x59]
  | .ld_E_D => [0x5A]
  | .ld_E_E => [0x5B]
  | .ld_E_H => [0x5C]
  | .ld_E_L => [0x5D]
  | .ld_E_A => [0x5F]
  | .ld_H_B => [0x60]
  | .ld_H_C => [0x61]
  | .ld_H_D => [0x62]
  | .ld_H_E => [0x63]
  | .ld_H_H => [0x64]
  | .ld_H_L => [0x65]
  | .ld_H_A => [0x67]
  | .ld_L_B => [0x68]
  | .ld_L_C => [0x69]
  | .ld_L_D => [0x6A]
  | .ld_L_E => [0x6B]
  | .ld_L_H => [0x6C]
  | .ld_L_L => [0x6D]
  | .ld_L_A => [0x6F]
  | .halt => [0x76]
  | .ld_A_B => [0x78]
  | .ld_A_C => [0x79]
  | .ld_A_D => [0x7A]
  | .ld_A_E => [0x7B]
  | .ld_A_H => [0x7C]
  | .ld_A_L => [0x7D]
  | .ld_A_A => [0x7F]
  | .add_A_B => [0x80]
  | .add_A_C => [0x81]
  | .add_A_D => [0x82]
  | .add_A_E => [0x83]
  | .add_A_H => [0x84]
  | .add_A_L => [0x85]
  | .add_A_A => [0x87]
  | .adc_A_B => [0x88]
  | .adc_A_C => [0x89]
  | .adc_A_D => [0x8A]
  | .adc_A_E => [0x8B]
  | .adc_A_H => [0x8C]
  | .adc_A_L => [0x8D]
  | .adc_A_A => [0x8F]
  | .sub_B => [0x90]
  | .sub_C => [0x91]
  | .sub_D => [0x92]
  | .sub_E => [0x93]
  | .sub_H => [0x94]
  | .sub_L => [0x95]
  | .sub_A => [0x97]
  | .sbc_A_B => [0x98]
  | .sbc_A_C => [0x99]
  | .sbc_A_D => [0x9A]
  | .sbc_A_E => [0x9B]
  | .sbc_A_H => [0x9C]
  | .sbc_A_L => [0x9D]
  | .sbc_A_A => [0x9F]
  | .and_B => [0xA0]
  | .and_C => [0xA1]
  | .and_D => [0xA2]
  | .and_E => [0xA3]
  | .and_H => [0xA4]
  | .and_L => [0xA5]
  | .and_A => [0xA7]
  | .xor_B => [0xA8]
  | .xor_C => [0xA9]
  | .xor_D => [0xAA]
  | .xor_E => [0xAB]
  | .xor_H => [0xAC]
  | .xor_L => [0xAD]
  | .xor_A => [0xAF]
  | .or_B => [0xB0]
  | .or_C => [0xB1]
  | .or_D => [0xB2]
  | .or_E => [0xB3]
  | .or_H => [0xB4]
  | .or_L => [0xB5]
  | .or_A => [0xB7]
  | .cp_B => [0xB8]
  | .cp_C => [0xB9]
  | .cp_D => [0xBA]
  | .cp_E => [0xBB]
  | .cp_H => [0xBC]
  | .cp_L => [0xBD]
  | .cp_A => [0xBF]
  | .pop_BC => [0xC1]
  | .jp_NZ_nn nn => [0xC2, Machine.loByte nn, Machine.hiByte nn]
  | .jp_nn nn => [0xC3, Machine.loByte nn, Machine.hiByte nn]
  | .push_BC => [0xC5]
  | .add_A_n n => [0xC6, n]
  | .rst_00h => [0xC7]
  | .jp_Z_nn nn => [0xCA, Machine.loByte nn, Machine.hiByte nn]
  | .adc_A_n n => [0xCE, n]
  | .rst_08h => [0xCF]
  | .pop_DE => [0xD1]
  | .jp_NC_nn nn => [0xD2, Machine.loByte nn, Machine.hiByte nn]
  | .push_DE => [0xD5]
  | .sub_n n => [0xD6, n]
  | .rst_10h => [0xD7]
  | .jp_C_nn nn => [0xDA, Machine.loByte nn, Machine.hiByte nn]
  | .sbc_A_n n => [0xDE, n]
  | .rst_18h => [0xDF]
  | .pop_HL => [0xE1]
  | .push_HL => [0xE5]
  | .and_n n => [0xE6, n]
  | .rst_20h => [0xE7]
  | .xor_n n => [0xEE, n]
  | .rst_28h => [0xEF]
  | .pop_AF => [0xF1]
  | .di => [0xF3]
  | .push_AF => [0xF5]
  | .or_n n => [0xF6, n]
  | .rst_30h => [0xF7]
  | .ld_SP_HL => [0xF9]
  | .ei => [0xFB]
  | .cp_n n => [0xFE, n]
  | .rst_38h => [0xFF]
  | .sbc_HL_BC => [0xED, 0x42]
  | .retn => [0xED, 0x45]
  | .im_0 => [0xED, 0x46]
  | .adc_HL_BC => [0xED, 0x4A]
  | .reti => [0xED, 0x4D]
  | .sbc_HL_DE => [0xED, 0x52]
  | .im_1 => [0xED, 0x56]
  | .adc_HL_DE => [0xED, 0x5A]
  | .im_2 => [0xED, 0x5E]
  | .sbc_HL_HL => [0xED, 0x62]
  | .adc_HL_HL => [0xED, 0x6A]
  | .sbc_HL_SP => [0xED, 0x72]
  | .adc_HL_SP => [0xED, 0x7A]

/-- The length of an instruction in bytes: 1, 2 or 3 (R90). -/
def Instr.length (i : Instr) : Nat := (encode i).length

/-- The three bytes, in fetch order, of a row of spec/opcode_table.json whose opcode bits are `w`: bit 0 is the least
significant bit of the first byte, a later byte's bits count on, and bits the row does not give are 0. DEDUCED (LOG 18):
the table writes a two-byte row as the number 0xEDNN, first byte leftmost (R103), so a two-byte number whose leftmost
byte alone is the prefix is read that way round, and either numbering names the same row. -/
def tableWordBytes (nbits w : Nat) : List Byte :=
  let byte (k : Nat) : Byte := BitVec.ofNat 8 (w / 256 ^ k)
  if nbits ≤ 8 then [byte 0, 0, 0]
  else if nbits ≤ 16 then if byte 1 = 0xED ∧ byte 0 ≠ 0xED then [byte 1, byte 0, 0] else [byte 0, byte 1, 0]
  else [byte 0, byte 1, byte 2]

/-- The instruction the decoder reads from a row of the table (LOG 18). -/
def decodeTableWord (nbits w : Nat) : Option Instr :=
  match decode (tableWordBytes nbits w) with
  | .ok i _ => some i
  | _ => none

end Sys2Proof
end

