-- ==== Sys2Proof/Machine/Fetch.lean ====
section
/-!
DEFINITION. Fetching and dispatching an instruction's bytes (40_engine_step R120, R123, R124, R128), the state a failing
Step leaves latched (60_exceptions R281), and placing an instruction where the next Step fetches it.
-/

namespace Sys2Proof.Machine

/-- `Fetch8()` (R123). -/
def fetch8 (s : State) : Byte × State := (s.readByte s.pc, s.setPC (s.pc + 1))

/-- `Fetch16()`: the low byte comes first (R124). -/
def fetch16 (s : State) : Word × State :=
  let low := fetch8 s
  let high := fetch8 low.2
  (wordOf high.1 low.1, high.2)

/-- One instruction fetched and decoded, with PC past its last byte, or the failure with the bytes that have no decode entry
(R120, R128, R281). Only the bytes of the instruction are fetched. -/
def fetchDecode (s : State) : Except Fault (Instr × State) :=
  let first := fetch8 s
  if first.1 = 0xED then
    let second := fetch8 first.2
    match decodeEd second.1 with
    | some i => .ok (i, second.2)
    | none => .error (.unimplementedOpcode s.pc first.1 (some second.1))
  else
    match decodeMain first.1 with
    | none => .error (.unimplementedOpcode s.pc first.1 none)
    | some (.op i) => .ok (i, first.2)
    | some (.opN f) => .ok (f (fetch8 first.2).1, (fetch8 first.2).2)
    | some (.opE f) => .ok (f (fetch8 first.2).1, (fetch8 first.2).2)
    | some (.opNN f) => .ok (f (fetch16 first.2).1, (fetch16 first.2).2)

/-- The state a failing Step leaves (R281): `BeforeInstruction` has taken effect, PC has advanced by the one or two bytes
fetched, Cycles is unchanged, and the failure is latched. Only `fault` may be relied on (LOG 8). -/
def latchFault (s : State) (r : Fault) : State :=
  match s.fault with
  | some _ => s
  | none =>
    match r with
    | .unimplementedOpcode _ _ op2 =>
      let fetched : Word := if op2.isSome then 2 else 1
      { beforeInstruction s with pc := s.pc + fetched, fault := some r }

/-- Bytes written at ascending addresses from one on, wrapping modulo 2^16, past the RAM window: a loader's write. -/
def Memory.place (m : Memory) (addr : Word) (bytes : List Byte) : Memory :=
  match bytes with
  | [] => m
  | v :: rest => Memory.place (m.write addr.toNat v) (addr + 1) rest

/-- The state with three bytes placed at PC, made ready to fetch them in its next Step: not halted, no failure latched, no
NMI latched that would be taken first, and no maskable request that would be (LOG 19). -/
def placeAtFetch (s : State) (bytes : List Byte) : State :=
  { s with
    mem := Memory.place s.mem s.pc bytes
    halted := false
    fault := none
    nmiPending := s.nmiPending && s.nmiTriggered
    pendingMaskable := if s.iff1 && decide (s.eiDelay = 0) then [] else s.pendingMaskable }

end Sys2Proof.Machine
end

