-- ==== Sys2Proof/Machine/Sequence.lean ====
section
/-!
DEFINITION. The Step sequence (40_engine_step R120): delay, interrupt check, halt check, fetch and execute.
-/

namespace Sys2Proof.Machine

/-- A Step in the Halted state with no interrupt taken: the fixed cost, PC unchanged, nothing fetched (R126). -/
def haltIdle (s : State) : State := s.addCycles s.config.cyc.haltIdle

/-- The rest of a Step that takes no interrupt: idle when halted, else fetch, decode and run one instruction (R120). -/
def runUninterrupted (run : Instr → State → Out) (s : State) : Out :=
  if s.halted then .next (haltIdle s)
  else
    match fetchDecode s with
    | .error r => .fault r
    | .ok (i, s) => run i s

/-- `Step()` (R120), with the meaning of instructions as an argument: `BeforeInstruction()`, then
`ShouldProcessInterrupt()`, then the interrupt it yields or the rest of the Step. A Step taken while a failure is
latched answers that failure again. DESIGN CHOICE (LOG 7): R32 gives it no meaning and D23 leaves this to the model. -/
def stepWith (run : Instr → State → Out) (s : State) : Out :=
  match s.fault with
  | some r => .fault r
  | none =>
    match shouldProcessInterrupt (beforeInstruction s) with
    | (some r, s) => .next (handleInterrupt r s)
    | (none, s) => runUninterrupted run s

end Sys2Proof.Machine
end

