-- ==== Sys2Proof/Machine/Step.lean ====
section
/-!
DEFINITION. One step of the machine, and a state that fetches a given instruction next.
-/

namespace Sys2Proof.Machine

/-- `Step()`: the only way the engine advances (R120). -/
def step (s : State) : Host.Outcome State Fault Refusal := stepWith exec s

/-- `s` with the instruction of a row of the opcode table stored where the next step fetches (LOG 18, 19). -/
def State.withFetchWord (s : State) (nbits w : Nat) : State := placeAtFetch s (tableWordBytes nbits w)

end Sys2Proof.Machine
end

