-- ==== Sys2Proof/Machine/HostPort.lean ====
section
/-!
DEFINITION. What the host and the requester may do between Steps (00_scope R4, R11; 60_exceptions R254, R263, R290, R300,
R302; 70_reset_and_hazards R320; 20_memory R61), and runs that interleave it with Steps.
-/

namespace Sys2Proof.Machine

/-- `InstructionEngine.Reset()` (R320): `PC <- 0; SP <- SP_RESET; Halted <- false; Cycles <- 0`, then the controller's
Reset. A, F, B, C, D, E, H, L, memory and a latched failure keep their values (R321). -/
def engineReset (s : State) : State :=
  controllerReset { s with pc := 0x0000, sp := s.config.spReset, halted := false, cycles := 0 }

/-- The registers of the inspection surface (R300). -/
inductive InspectReg where
  | a
  | f
  | b
  | c
  | d
  | e
  | h
  | l
  | sp
  | pc
deriving DecidableEq, Repr

/-- Whether a register of the inspection surface is 16 bits wide (R20). -/
def InspectReg.wide (r : InspectReg) : Bool :=
  match r with
  | .sp | .pc => true
  | .a | .f | .b | .c | .d | .e | .h | .l => false

/-- A register read through the inspection surface; 8-bit registers are zero-extended (R300). -/
def inspectRead (r : InspectReg) (s : State) : Word :=
  match r with
  | .a => zext16 s.a
  | .f => zext16 s.f
  | .b => zext16 s.b
  | .c => zext16 s.c
  | .d => zext16 s.d
  | .e => zext16 s.e
  | .h => zext16 s.h
  | .l => zext16 s.l
  | .sp => s.sp
  | .pc => s.pc

/-- A register written through the inspection surface; an 8-bit register takes the low byte (R300). -/
def inspectWrite (r : InspectReg) (v : Word) (s : State) : State :=
  match r with
  | .a => { s with a := loByte v }
  | .f => { s with f := loByte v }
  | .b => { s with b := loByte v }
  | .c => { s with c := loByte v }
  | .d => { s with d := loByte v }
  | .e => { s with e := loByte v }
  | .h => { s with h := loByte v }
  | .l => { s with l := loByte v }
  | .sp => { s with sp := v }
  | .pc => { s with pc := v }

/-- A memory range read byte by byte through `ReadByte` (R300); addresses wrap (LOG 22). -/
def inspectReadRange (addr : Word) (length : Nat) (s : State) : List Byte :=
  match length with
  | 0 => []
  | n + 1 => s.readByte addr :: inspectReadRange (addr + 1) n s

/-- A memory range written byte by byte through `WriteByte`, each byte subject to the RAM window (R300); addresses wrap
(LOG 22). -/
def inspectWriteRange (addr : Word) (bytes : List Byte) (s : State) : State :=
  match bytes with
  | [] => s
  | v :: rest => inspectWriteRange (addr + 1) rest (s.writeByte addr v)

/-- `LoadRom(bytes)`: the whole space zeroed, the image at address 0, its length the new ROM size (R61). An image of more
than 65536 bytes is outside what R61 gives a meaning: no state (LOG 20). After Reset: LOG 26. -/
def loadRom (bytes : List Byte) (s : State) : Option State :=
  if bytes.length ≤ 65536 then some { s with mem := Memory.ofImage 0 bytes, romSize := bytes.length } else none

/-- `Configure(romSize, ramSize)`: the sizes fixed (R61). Where the platform puts the RAM window and SP_RESET for them is
OPEN (D11, D12), so the move carries the platform's choice. DESIGN CHOICE (LOG 20). After
Reset: LOG 26. -/
def configure (romSize ramSize : Nat) (ramLo ramHi spReset : Word) (s : State) : State :=
  { s with
    romSize := romSize
    ramSize := ramSize
    config := { s.config with ramLo := ramLo, ramHi := ramHi, spReset := spReset } }

/-- Everything the outside may do to the block between two Steps (R302); reading changes nothing and needs no move. -/
inductive HostMove where
  | configure (romSize ramSize : Nat) (ramLo ramHi spReset : Word)
  | loadRom (bytes : List Byte)
  | reset
  | request (r : InterruptRequest)
  | setVectorRegister (v : Byte)
  | setInterruptMode (m : IntMode)
  | writeReg (r : InspectReg) (v : Word)
  | writeMem (addr : Word) (bytes : List Byte)
deriving DecidableEq, Repr

/-- The state after a move; none where the move has no meaning (LOG 20). R61, R302 and R325 place `Configure` and `LoadRom`
before Reset and say nothing of a later call. DESIGN CHOICE (LOG 26): at any Step boundary they have the effect R61 gives
them, all else stays as it is, and no Reset is required after them. -/
def HostMove.apply (m : HostMove) (s : State) : Option State :=
  match m with
  | .configure romSize ramSize ramLo ramHi spReset => some (Machine.configure romSize ramSize ramLo ramHi spReset s)
  | .loadRom bytes => Machine.loadRom bytes s
  | .reset => some (engineReset s)
  | .request r => some (requestInterrupt r s)
  | .setVectorRegister v => some (Machine.setVectorRegister v s)
  | .setInterruptMode m => some (Machine.setInterruptMode m s)
  | .writeReg r v => some (inspectWrite r v s)
  | .writeMem addr bytes => some (inspectWriteRange addr bytes s)

/-- One event of a run: a Step of the engine, or a move of the outside between Steps (R4). -/
inductive Event where
  | step
  | host (m : HostMove)
deriving DecidableEq, Repr

/-- The state after an event. A failing Step latches its failure (R32, R281). -/
def Event.apply (ev : Event) (s : State) : Option State :=
  match ev with
  | .host m => m.apply s
  | .step =>
    match Machine.step s with
    | .next t => some t
    | .fault r => some (latchFault s r)
    | .refused _ => none

/-- The state after a list of events, in order. A claim about a program quantifies over the host's moves in the list: the
requester may act at any Step boundary (R290; LOG 6). -/
def runEvents (events : List Event) (s : State) : Option State :=
  match events with
  | [] => some s
  | ev :: rest => (ev.apply s).bind (runEvents rest)

end Sys2Proof.Machine
end

