-- ==== Sys2Proof/WellFormed.lean ====
section
/-!
DEFINITION. What well-formed data is. An instruction is well-formed by its type: every operand is a register code, a
condition or a bit vector exactly as wide as its encoding admits (30_encoding R90, R94 to R99), so the only checks
are those on a configuration, a ROM image and the queue of requests.
-/

namespace Sys2Proof

/-- Every `Instr` is well-formed: the types of its operands admit what the encoding admits and nothing else (R99). -/
def Instr.wf (_ : Instr) : Bool := true

/-- Every cost is positive: "exactly one `Cycles += n` with `n > 0`" (R31). -/
def Cyc.wf (t : Cyc) : Bool := t.costs.all fun n => decide (0 < n)

/-- A configuration is well-formed when its cycle table is; every RAM window is, the empty one too (D12). -/
def Config.wf (p : Config) : Bool := p.cyc.wf

/-- A ROM image fits the address space: `length(bytes) <= 65536` (R61). -/
def romImageWf (bytes : List Byte) : Bool := decide (bytes.length ≤ 65536)

/-- Every entry of the queue is a maskable request (R49). -/
def queueMaskable (q : List Machine.InterruptRequest) : Bool := q.all fun r => decide (r.type = .maskable)

/-- The queue is sorted ascending by priority (R49). -/
def queueSorted (q : List Machine.InterruptRequest) : Bool :=
  match q with
  | [] => true
  | r :: rest => rest.all (fun x => decide (r.priority ≤ x.priority)) && queueSorted rest

/-- What `pendingMaskable` may hold (R49). -/
def queueWf (q : List Machine.InterruptRequest) : Bool := queueMaskable q && queueSorted q

end Sys2Proof
end

