-- ==== Sys2Proof/Safety.lean ====
section
/-!
DEFINITION. The terms claims are stated in: the invariant of the machine at a Step boundary, the Step that takes no
interrupt, the accesses that stay outside the RAM window, and which parts of the state an instruction leaves alone.
-/

namespace Sys2Proof.Machine

/-- What holds of every state at a Step boundary: memory in canonical form, the queue of maskable requests sorted (R49),
no NMI between its selection and its consumption (R48), and every cost positive (R31). -/
structure State.Inv (s : State) : Prop where
  memory : s.mem.wf = true
  queue : queueWf s.pendingMaskable = true
  nmiIdle : s.nmiTriggered = false
  costs : s.config.wf = true

/-- An NMI is taken at the Step from this state (R256, R268). -/
def State.takesNmi (s : State) : Bool := s.nmiPending && !s.nmiTriggered

/-- The maskable request taken at the Step from this state, if one is (R256, R268): no NMI is, `iff1` is set, no EI
shadow, and the queue has a head. -/
def State.takesMaskable (s : State) : Option InterruptRequest :=
  if !s.takesNmi && s.iff1 && decide (s.eiDelay = 0) then s.pendingMaskable.head? else none

/-- No interrupt is taken at the Step from this state (R256). -/
def State.quiet (s : State) : Prop := s.takesNmi = false ∧ s.takesMaskable = none

/-- The three bytes at PC, as many as the longest instruction has (R90). -/
def State.bytesAtPC (s : State) : List Byte :=
  [s.readByte s.pc, s.readByte (s.pc + 1), s.readByte (s.pc + 2)]

/-- The state an instruction runs from, when no interrupt is taken: `BeforeInstruction` done and PC past the
instruction's bytes (R120, R24). -/
def State.fetched (s : State) (length : Nat) : State :=
  { s with samplePoint := decide (s.eiDelay = 0), eiDelay := 0, pc := s.pc + BitVec.ofNat 16 length }

/-- Nothing differs but the seven 8-bit registers an opcode can name, F, SP and Cycles: the frame of an instruction that
computes in registers. -/
def State.onlyRegisters (s t : State) : Prop :=
  t =
    { s with
      a := t.a, b := t.b, c := t.c, d := t.d, e := t.e, h := t.h, l := t.l, f := t.f, sp := t.sp, cycles := t.cycles }

/-- F after a flag-writing instruction: bit 6 and bit 0 as given, the other bits as they were (R25, R27). -/
def flagsWritten (before after : Byte) (z c : Bool) : Prop :=
  after.getLsbD 6 = z ∧ after.getLsbD 0 = c ∧ ∀ k, k ≠ 6 → k ≠ 0 → after.getLsbD k = before.getLsbD k

/-- Memory after `v` has been pushed on the stack of `s` (R216): the high byte at SP - 1 and the low byte at SP - 2, each where
the RAM window admits it (R63), every other byte as it was. -/
def State.pushed (s t : State) (v : Word) : Prop :=
  (t.readByte (s.sp - 1) = if s.config.inRam (s.sp - 1) then hiByte v else s.readByte (s.sp - 1)) ∧
  (t.readByte (s.sp - 2) = if s.config.inRam (s.sp - 2) then loByte v else s.readByte (s.sp - 2)) ∧
  ∀ addr, addr ≠ s.sp - 1 → addr ≠ s.sp - 2 → t.readByte addr = s.readByte addr

/-- A run is safe so far: it has reached a state, and no failure is latched in it (R32). -/
def safeRun (events : List Event) (s : State) : Prop :=
  ∃ t, runEvents events s = some t ∧ t.fault = none

end Sys2Proof.Machine
end

