-- ==== Sys2Proof/Certificates/Slice0/Obligations.lean ====
section
/-!
DEFINITION. The statements put to the provers, one `def Obligations.<Name> : Prop` each, in the order of
OBLIGATIONS.json. Costs are the entries of the cycle table the state carries, whatever they are.
-/

open Sys2Proof Sys2Proof.Machine

/-- O1. R141: `R8[y] <- R8[z]`, no flag; covers the 49 constructors `ld_r_r2`. -/
def Obligations.LoadRegisterFromRegister : Prop :=
  ∀ (r r2 : Reg8) (s : State),
    encode (.ldRR r r2) = [0x40 ||| (r.code <<< 3) ||| r2.code] ∧
    ∃ t, exec (.ldRR r r2) s = .next t ∧
      t.get8 r = s.get8 r2 ∧ (∀ q, q ≠ r → t.get8 q = s.get8 q) ∧
      t.f = s.f ∧ t.sp = s.sp ∧ t.cycles = s.cycles + BitVec.ofNat 64 s.config.cyc.ldRR ∧ s.onlyRegisters t

/-- O2. R142: `R8[y] <- n`, no flag; covers the seven constructors `ld_r_n`. -/
def Obligations.LoadRegisterImmediate : Prop :=
  ∀ (r : Reg8) (n : Byte) (s : State),
    encode (.ldRN r n) = [0x06 ||| (r.code <<< 3), n] ∧
    ∃ t, exec (.ldRN r n) s = .next t ∧
      t.get8 r = n ∧ (∀ q, q ≠ r → t.get8 q = s.get8 q) ∧
      t.f = s.f ∧ t.sp = s.sp ∧ t.cycles = s.cycles + BitVec.ofNat 64 s.config.cyc.ldRN ∧ s.onlyRegisters t

/-- O3. R143: `R16dd[p] <- nn`, no flag, the second byte of the instruction being the low byte; covers the four
constructors `ld_dd_nn`. -/
def Obligations.LoadPairImmediate : Prop :=
  ∀ (dd : RegDD) (nn : Word) (s : State),
    encode (.ldDDNN dd nn) = [0x01 ||| (dd.code <<< 4), nn.extractLsb' 0 8, nn.extractLsb' 8 8] ∧
    ∃ t, exec (.ldDDNN dd nn) s = .next t ∧
      t.getDD dd = nn ∧ (∀ q, q ≠ dd → t.getDD q = s.getDD q) ∧
      t.a = s.a ∧ t.f = s.f ∧ t.cycles = s.cycles + BitVec.ofNat 64 s.config.cyc.ldDDNN ∧ s.onlyRegisters t

/-- O4. R144: `SP <- H:L`, nothing else but the cost. -/
def Obligations.LoadStackPointerFromHL : Prop :=
  ∀ s : State,
    encode .ld_SP_HL = [0xF9] ∧
    exec .ld_SP_HL s =
      .next { s with sp := s.h ++ s.l, cycles := s.cycles + BitVec.ofNat 64 s.config.cyc.ldSPHL }

/-- O5. R151, R152, R153, R154: A, ZF and CF after ADD and ADC, register and immediate; the carry flag is added by ADC only.
Covers `add_A_r`, `add_A_n`, `adc_A_r`, `adc_A_n`. The clause on the other six bits of F is R27, the spec's decision
D6 (LOG 12). -/
def Obligations.AddAndAddWithCarryToA : Prop :=
  ∀ (s : State),
    let runs := fun (i : Instr) (x : Byte) (carryIn : Bool) (cost : Nat) =>
      let sum := s.a.toNat + x.toNat + (if carryIn then 1 else 0)
      ∃ t, exec i s = .next t ∧ t.a = BitVec.ofNat 8 sum ∧
        flagsWritten s.f t.f (decide (sum % 256 = 0)) (decide (256 ≤ sum)) ∧
        t = { s with a := t.a, f := t.f, cycles := s.cycles + BitVec.ofNat 64 cost }
    (∀ r : Reg8,
      encode (.aluR .add r) = [0x80 ||| r.code] ∧ runs (.aluR .add r) (s.get8 r) false s.config.cyc.aluR ∧
      encode (.aluR .adc r) = [0x88 ||| r.code] ∧ runs (.aluR .adc r) (s.get8 r) (s.f.getLsbD 0) s.config.cyc.aluR) ∧
    (∀ n : Byte,
      encode (.add_A_n n) = [0xC6, n] ∧ runs (.add_A_n n) n false s.config.cyc.aluN ∧
      encode (.adc_A_n n) = [0xCE, n] ∧ runs (.adc_A_n n) n (s.f.getLsbD 0) s.config.cyc.aluN)

/-- O6. R155, R156, R157, R158: A, ZF and CF (the borrow) after SUB and SBC, register and immediate. Covers `sub_r`, `sub_n`,
`sbc_A_r`, `sbc_A_n`. The clause on the other six bits of F is R27, the spec's decision D6 (LOG 12). -/
def Obligations.SubtractAndSubtractWithCarryFromA : Prop :=
  ∀ (s : State),
    let runs := fun (i : Instr) (x : Byte) (carryIn : Bool) (cost : Nat) =>
      let diff : Int := (s.a.toNat : Int) - (x.toNat : Int) - (if carryIn then 1 else 0)
      ∃ t, exec i s = .next t ∧ (t.a.toNat : Int) = diff % 256 ∧
        flagsWritten s.f t.f (decide (diff % 256 = 0)) (decide (diff < 0)) ∧
        t = { s with a := t.a, f := t.f, cycles := s.cycles + BitVec.ofNat 64 cost }
    (∀ r : Reg8,
      encode (.aluR .sub r) = [0x90 ||| r.code] ∧ runs (.aluR .sub r) (s.get8 r) false s.config.cyc.aluR ∧
      encode (.aluR .sbc r) = [0x98 ||| r.code] ∧ runs (.aluR .sbc r) (s.get8 r) (s.f.getLsbD 0) s.config.cyc.aluR) ∧
    (∀ n : Byte,
      encode (.sub_n n) = [0xD6, n] ∧ runs (.sub_n n) n false s.config.cyc.aluN ∧
      encode (.sbc_A_n n) = [0xDE, n] ∧ runs (.sbc_A_n n) n (s.f.getLsbD 0) s.config.cyc.aluN)

/-- O7. R165, R166: CP leaves A, ZF says A = x and CF says A < x unsigned. Covers `cp_r`, `cp_n`. The clause on the other
six bits of F is R27, the spec's decision D6 (LOG 12). -/
def Obligations.CompareLeavesAAndOrdersFlags : Prop :=
  ∀ (s : State),
    let runs := fun (i : Instr) (x : Byte) (cost : Nat) =>
      ∃ t, exec i s = .next t ∧ flagsWritten s.f t.f (decide (s.a = x)) (decide (s.a.toNat < x.toNat)) ∧
        t = { s with f := t.f, cycles := s.cycles + BitVec.ofNat 64 cost }
    (∀ r : Reg8,
      encode (.aluR .cp r) = [0xB8 ||| r.code] ∧ runs (.aluR .cp r) (s.get8 r) s.config.cyc.aluR) ∧
    (∀ n : Byte, encode (.cp_n n) = [0xFE, n] ∧ runs (.cp_n n) n s.config.cyc.aluN)

/-- O8. R159 to R164: A and ZF after AND, XOR, OR, register and immediate; CF is cleared. Covers `and_r`, `and_n`, `xor_r`,
`xor_n`, `or_r`, `or_n`. The clause on the other six bits of F is R27, the spec's decision D6 (LOG 12). -/
def Obligations.LogicalOperationsClearCarry : Prop :=
  ∀ (s : State),
    let runs := fun (i : Instr) (res : Byte) (cost : Nat) =>
      ∃ t, exec i s = .next t ∧ t.a = res ∧ flagsWritten s.f t.f (decide (res = 0)) false ∧
        t = { s with a := t.a, f := t.f, cycles := s.cycles + BitVec.ofNat 64 cost }
    (∀ r : Reg8,
      encode (.aluR .and r) = [0xA0 ||| r.code] ∧ runs (.aluR .and r) (s.a &&& s.get8 r) s.config.cyc.aluR ∧
      encode (.aluR .xor r) = [0xA8 ||| r.code] ∧ runs (.aluR .xor r) (s.a ^^^ s.get8 r) s.config.cyc.aluR ∧
      encode (.aluR .or r) = [0xB0 ||| r.code] ∧ runs (.aluR .or r) (s.a ||| s.get8 r) s.config.cyc.aluR) ∧
    (∀ n : Byte,
      encode (.and_n n) = [0xE6, n] ∧ runs (.and_n n) (s.a &&& n) s.config.cyc.aluN ∧
      encode (.xor_n n) = [0xEE, n] ∧ runs (.xor_n n) (s.a ^^^ n) s.config.cyc.aluN ∧
      encode (.or_n n) = [0xF6, n] ∧ runs (.or_n n) (s.a ||| n) s.config.cyc.aluN)

/-- O9. R181: `HL <- HL + ss`, CF the carry out, ZF not changed; covers the four constructors `add_HL_ss`. The clause on the
other bits of F is R27, the spec's decision D6 (LOG 12). -/
def Obligations.AddPairToHLKeepsZero : Prop :=
  ∀ (ss : RegDD) (s : State),
    let sum := (s.getDD .hl).toNat + (s.getDD ss).toNat
    encode (.addHLSS ss) = [0x09 ||| (ss.code <<< 4)] ∧
    ∃ t, exec (.addHLSS ss) s = .next t ∧
      t.h ++ t.l = BitVec.ofNat 16 sum ∧ flagsWritten s.f t.f (s.f.getLsbD 6) (decide (65536 ≤ sum)) ∧
      t = { s with h := t.h, l := t.l, f := t.f, cycles := s.cycles + BitVec.ofNat 64 s.config.cyc.addHLSS }

/-- O10. R182, R183: `HL <- HL + ss + CF` and `HL <- HL - ss - CF`, ZF of the whole result, CF the carry or the borrow;
covers the eight constructors `adc_HL_ss`, `sbc_HL_ss`. The clause on the other bits of F is R27, the spec's decision
D6 (LOG 12). -/
def Obligations.AdcAndSbcOfHL : Prop :=
  ∀ (ss : RegDD) (s : State),
    let carryIn : Nat := if s.f.getLsbD 0 then 1 else 0
    let sum := (s.getDD .hl).toNat + (s.getDD ss).toNat + carryIn
    let diff : Int := ((s.getDD .hl).toNat : Int) - ((s.getDD ss).toNat : Int) - (carryIn : Int)
    encode (.adcHLSS ss) = [(0xED : Byte), 0x4A ||| (ss.code <<< 4)] ∧
    encode (.sbcHLSS ss) = [(0xED : Byte), 0x42 ||| (ss.code <<< 4)] ∧
    (∃ t, exec (.adcHLSS ss) s = .next t ∧
      t.h ++ t.l = BitVec.ofNat 16 sum ∧ flagsWritten s.f t.f (decide (sum % 65536 = 0)) (decide (65536 ≤ sum)) ∧
      t = { s with h := t.h, l := t.l, f := t.f, cycles := s.cycles + BitVec.ofNat 64 s.config.cyc.adcHLSS }) ∧
    (∃ t, exec (.sbcHLSS ss) s = .next t ∧
      ((t.h ++ t.l).toNat : Int) = diff % 65536 ∧ flagsWritten s.f t.f (decide (diff % 65536 = 0)) (decide (diff < 0)) ∧
      t = { s with h := t.h, l := t.l, f := t.f, cycles := s.cycles + BitVec.ofNat 64 s.config.cyc.sbcHLSS })

/-- O11. R191, R192: the register one up or one down modulo 256, ZF of the result, CF not changed; covers the fourteen
constructors `inc_r`, `dec_r`. The clause on the other bits of F is R27, the spec's decision D6 (LOG 12). -/
def Obligations.IncrementAndDecrementRegister : Prop :=
  ∀ (r : Reg8) (s : State),
    let runs := fun (i : Instr) (res : Byte) (cost : Nat) =>
      ∃ t, exec i s = .next t ∧ t.get8 r = res ∧ (∀ q, q ≠ r → t.get8 q = s.get8 q) ∧
        flagsWritten s.f t.f (decide (res = 0)) (s.f.getLsbD 0) ∧
        t.sp = s.sp ∧ t.cycles = s.cycles + BitVec.ofNat 64 cost ∧ s.onlyRegisters t
    encode (.incR r) = [0x04 ||| (r.code <<< 3)] ∧ runs (.incR r) (s.get8 r + 1) s.config.cyc.incR ∧
    encode (.decR r) = [0x05 ||| (r.code <<< 3)] ∧ runs (.decR r) (s.get8 r - 1) s.config.cyc.decR

/-- O12. R193, R194: the pair or SP one up or one down modulo 65536, no flag; covers the eight constructors `inc_ss`,
`dec_ss`. -/
def Obligations.IncrementAndDecrementPair : Prop :=
  ∀ (ss : RegDD) (s : State),
    let runs := fun (i : Instr) (res : Word) (cost : Nat) =>
      ∃ t, exec i s = .next t ∧ t.getDD ss = res ∧ (∀ q, q ≠ ss → t.getDD q = s.getDD q) ∧
        t.a = s.a ∧ t.f = s.f ∧ t.cycles = s.cycles + BitVec.ofNat 64 cost ∧ s.onlyRegisters t
    encode (.incSS ss) = [0x03 ||| (ss.code <<< 4)] ∧ runs (.incSS ss) (s.getDD ss + 1) s.config.cyc.incSS ∧
    encode (.decSS ss) = [0x0B ||| (ss.code <<< 4)] ∧ runs (.decSS ss) (s.getDD ss - 1) s.config.cyc.decSS

/-- O13. R201, R202: `PC <- nn`, or for a condition that does not hold the PC after the operand bytes, with the one cost;
nothing else. Covers `jp_nn`, `jp_cc_nn`. -/
def Obligations.AbsoluteJumps : Prop :=
  ∀ (nn : Word) (s : State),
    encode (.jp_nn nn) = [0xC3, nn.extractLsb' 0 8, nn.extractLsb' 8 8] ∧
    exec (.jp_nn nn) s = .next { s with pc := nn, cycles := s.cycles + BitVec.ofNat 64 s.config.cyc.jp } ∧
    ∀ cc : Cond,
      encode (.jpCC cc nn) = [0xC2 ||| (cc.code <<< 3), nn.extractLsb' 0 8, nn.extractLsb' 8 8] ∧
      exec (.jpCC cc nn) s =
        .next
          { s with
            pc := if condHolds cc s.f then nn else s.pc
            cycles := s.cycles + BitVec.ofNat 64 s.config.cyc.jpCC }

/-- O14. R203, R204: `PC <- (PC + sext_16(e)) mod 65536` from the PC after the instruction, with different costs taken and
not taken; nothing else. Covers `jr_e`, `jr_cc_e`. -/
def Obligations.RelativeJumps : Prop :=
  ∀ (e : Byte) (s : State),
    let target : Word := s.pc + BitVec.ofInt 16 e.toInt
    encode (.jr_e e) = [0x18, e] ∧
    exec (.jr_e e) s = .next { s with pc := target, cycles := s.cycles + BitVec.ofNat 64 s.config.cyc.jr } ∧
    ∀ cc : Cond,
      encode (.jrCC cc e) = [0x20 ||| (cc.code <<< 3), e] ∧
      (condHolds cc s.f = true →
        exec (.jrCC cc e) s =
          .next { s with pc := target, cycles := s.cycles + BitVec.ofNat 64 s.config.cyc.jrCCTaken }) ∧
      (condHolds cc s.f = false →
        exec (.jrCC cc e) s = .next { s with cycles := s.cycles + BitVec.ofNat 64 s.config.cyc.jrCCNot })

/-- O15. R97: the four conditions, each on one flag. -/
def Obligations.ConditionsReadZeroAndCarry : Prop :=
  ∀ f : Byte,
    condHolds .nz f = !f.getLsbD 6 ∧ condHolds .z f = f.getLsbD 6 ∧
    condHolds .nc f = !f.getLsbD 0 ∧ condHolds .c f = f.getLsbD 0

/-- O16. R218: the pair pushed, SP two lower, every other byte of memory and everything else as it was; covers the four
constructors `push_qq`. -/
def Obligations.PushStoresPair : Prop :=
  ∀ (qq : RegQQ) (s : State),
    encode (.push qq) = [0xC5 ||| (qq.code <<< 4)] ∧
    ∃ t, exec (.push qq) s = .next t ∧ s.pushed t (s.getQQ qq) ∧
      t =
        { s with
          sp := s.sp - 2, mem := t.mem, cycles := s.cycles + BitVec.ofNat 64 s.config.cyc.push }

/-- O17. R219: the low register gets the byte at the old SP, the high register the byte at SP + 1, SP two higher, memory
unchanged; POP AF writes all eight bits of F, the others no flag. Covers the four constructors `pop_qq`. -/
def Obligations.PopLoadsPair : Prop :=
  ∀ (qq : RegQQ) (s : State),
    encode (.pop qq) = [0xC1 ||| (qq.code <<< 4)] ∧
    ∃ t, exec (.pop qq) s = .next t ∧
      t.getQQ qq = s.readByte (s.sp + 1) ++ s.readByte s.sp ∧ (∀ q, q ≠ qq → t.getQQ q = s.getQQ q) ∧
      t.sp = s.sp + 2 ∧ t.cycles = s.cycles + BitVec.ofNat 64 s.config.cyc.pop ∧ s.onlyRegisters t

/-- O18. R226, R251: EI sets `iff1`, `iff2` and the delay. R227, R252: DI clears them. Nothing else changes. -/
def Obligations.EnableAndDisableInterrupts : Prop :=
  ∀ s : State,
    encode .ei = [0xFB] ∧ encode .di = [0xF3] ∧
    exec .ei s =
      .next
        { s with
          iff1 := true, iff2 := true, eiDelay := 1, cycles := s.cycles + BitVec.ofNat 64 s.config.cyc.ei } ∧
    exec .di s =
      .next
        { s with
          iff1 := false, iff2 := false, eiDelay := 0, cycles := s.cycles + BitVec.ofNat 64 s.config.cyc.di }

/-- O19. R228, R229, R230, R255: IM 0, IM 1, IM 2 store the mode and nothing else. -/
def Obligations.InterruptModeInstructions : Prop :=
  ∀ s : State,
    let runs := fun (i : Instr) (m : IntMode) =>
      exec i s = .next { s with mode := m, cycles := s.cycles + BitVec.ofNat 64 s.config.cyc.im }
    encode .im_0 = [0xED, 0x46] ∧ runs .im_0 .mode0 ∧
    encode .im_1 = [0xED, 0x56] ∧ runs .im_1 .mode1 ∧
    encode .im_2 = [0xED, 0x5E] ∧ runs .im_2 .mode2

/-- O20. R231, R232, R259: `PC <- Pop16(); iff1 <- iff2`, nothing else; RETI and RETN alike. -/
def Obligations.ReturnsPopAndRestoreEnable : Prop :=
  ∀ s : State,
    let runs := fun (i : Instr) (cost : Nat) =>
      exec i s =
        .next
          { s with
            pc := s.readByte (s.sp + 1) ++ s.readByte s.sp
            sp := s.sp + 2
            iff1 := s.iff2
            cycles := s.cycles + BitVec.ofNat 64 cost }
    encode .reti = [0xED, 0x4D] ∧ runs .reti s.config.cyc.reti ∧
    encode .retn = [0xED, 0x45] ∧ runs .retn s.config.cyc.retn

/-- O21. R241: the address after the RST pushed, then `PC <- op AND 0x38`; covers the eight constructors `rst_p`. -/
def Obligations.RestartPushesAndJumps : Prop :=
  ∀ (p : RstTarget) (s : State),
    encode (.rst p) = [0xC7 ||| (p.code <<< 3)] ∧
    ∃ t, exec (.rst p) s = .next t ∧ s.pushed t s.pc ∧
      t =
        { s with
          pc := BitVec.zeroExtend 16 (((0xC7 : Byte) ||| (p.code <<< 3)) &&& 0x38)
          sp := s.sp - 2
          mem := t.mem
          cycles := s.cycles + BitVec.ofNat 64 s.config.cyc.rst }

/-- O22. R242: HALT sets Halted and leaves PC after itself; its own step costs `halt`, every later halted step that takes no
interrupt costs `haltIdle`. R130: NOP does nothing. -/
def Obligations.HaltAndNop : Prop :=
  ∀ s : State,
    encode .halt = [0x76] ∧ encode .nop = [0x00] ∧
    exec .halt s = .next { s with halted := true, cycles := s.cycles + BitVec.ofNat 64 s.config.cyc.halt } ∧
    exec .nop s = .next { s with cycles := s.cycles + BitVec.ofNat 64 s.config.cyc.nop } ∧
    (s.fault = none → s.quiet → s.halted = true →
      ∃ t, step s = .next t ∧ t.halted = true ∧ t.pc = s.pc ∧
        t.cycles = s.cycles + BitVec.ofNat 64 s.config.cyc.haltIdle)

/-- O23. Every instruction is one of the forms the statements above speak of, so together they cover all 194 constructors. -/
def Obligations.FormsCoverEveryInstruction : Prop :=
  ∀ i : Instr,
    (∃ r r2, i = .ldRR r r2) ∨ (∃ r n, i = .ldRN r n) ∨ (∃ dd nn, i = .ldDDNN dd nn) ∨ i = .ld_SP_HL ∨
    (∃ op r, i = .aluR op r) ∨ (∃ op n, i = .aluN op n) ∨
    (∃ ss, i = .addHLSS ss ∨ i = .adcHLSS ss ∨ i = .sbcHLSS ss) ∨ (∃ r, i = .incR r ∨ i = .decR r) ∨
    (∃ ss, i = .incSS ss ∨ i = .decSS ss) ∨ (∃ nn, i = .jp_nn nn ∨ ∃ cc, i = .jpCC cc nn) ∨
    (∃ e, i = .jr_e e ∨ ∃ cc, i = .jrCC cc e) ∨ (∃ qq, i = .push qq ∨ i = .pop qq) ∨ i = .ei ∨ i = .di ∨
    (∃ m, i = .im m) ∨ i = .reti ∨ i = .retn ∨ (∃ p, i = .rst p) ∨ i = .halt ∨ i = .nop

/-- O24. No instruction of the table can fail once decoded: `exec` answers a next state for every instruction and every
state. -/
def Obligations.EveryInstructionCompletes : Prop :=
  ∀ (i : Instr) (s : State), ∃ t, exec i s = .next t

/-- O25. R120: with no interrupt taken and not halted, the step is the meaning of the instruction the bytes at PC decode to,
run after `BeforeInstruction` with PC past the instruction's bytes. -/
def Obligations.StepRunsDecodedInstruction : Prop :=
  ∀ (s : State) (i : Instr) (rest : List Byte),
    s.fault = none → s.quiet → s.halted = false → decode s.bytesAtPC = .ok i rest → i.wf = true →
    step s = exec i (s.fetched i.length)

/-- O26. R126: the halted step adds the halt cost and nothing else happens but `BeforeInstruction`. -/
def Obligations.HaltedStepIdles : Prop :=
  ∀ s : State, s.fault = none → s.quiet → s.halted = true →
    step s =
      .next
        { s with
          samplePoint := decide (s.eiDelay = 0)
          eiDelay := 0
          cycles := s.cycles + BitVec.ofNat 64 s.config.cyc.haltIdle }

/-- O27. When a step fails, exactly: while a failure is latched (the model's choice, LOG 7), or when no interrupt is taken,
the engine is not halted and the byte or bytes at PC have no decode entry; the failure names the address and the bytes
(the record is the spec's decision D15). No step is refused. -/
def Obligations.StepFailsExactlyOnUnimplementedOpcode : Prop :=
  ∀ s : State,
    (∀ r, step s = .fault r ↔
      s.fault = some r ∨
      (s.fault = none ∧ s.quiet ∧ s.halted = false ∧
        ((∃ op, decode s.bytesAtPC = .unimplementedMain op ∧ r = .unimplementedOpcode s.pc op none) ∨
         (∃ op2, decode s.bytesAtPC = .unimplementedEd op2 ∧ r = .unimplementedOpcode s.pc 0xED (some op2))))) ∧
    (∀ r, step s ≠ .refused r)

/-- O28. The interrupt entry table (R264, R265). An NMI enters at 0x0066; a maskable request by the mode. In every row
`iff2 <- iff1; iff1 <- false`, the old PC is pushed, Halted is cleared, the row's cost is added and nothing else is saved.
The two Mode2 clauses are split on `config.im2Indirect`: when it is true, PC is read from the table after the push (the row of
R265 and the order of R264); when it is false, PC is I:vector itself, the other reading, which R6 and D9 keep as a switch.
That the model offers both is its choice (LOG 4). -/
def Obligations.InterruptEntryTable : Prop :=
  ∀ s : State, s.fault = none →
    (s.takesNmi = true →
      ∃ t, step s = .next t ∧ s.pushed t s.pc ∧
        t =
          { s with
            pc := 0x0066, sp := s.sp - 2, mem := t.mem, halted := false, iff2 := s.iff1, iff1 := false
            nmiPending := false, nmiTriggered := false
            samplePoint := decide (s.eiDelay = 0), eiDelay := 0
            cycles := s.cycles + BitVec.ofNat 64 s.config.cyc.intNmi }) ∧
    (∀ r, s.takesMaskable = some r → r.type = .maskable →
      ∃ t, step s = .next t ∧ s.pushed t s.pc ∧
        (s.mode = .mode0 → r.vector &&& 0xC7 = 0xC7 → t.pc = BitVec.zeroExtend 16 (r.vector &&& 0x38)) ∧
        (s.mode = .mode0 → r.vector &&& 0xC7 ≠ 0xC7 → t.pc = 0x0038) ∧
        (s.mode = .mode1 → t.pc = 0x0038) ∧
        (s.mode = .mode2 → s.config.im2Indirect = true →
          t.pc = t.readByte ((s.i ++ r.vector) + 1) ++ t.readByte (s.i ++ r.vector)) ∧
        (s.mode = .mode2 → s.config.im2Indirect = false → t.pc = s.i ++ r.vector) ∧
        t =
          { s with
            pc := t.pc, sp := s.sp - 2, mem := t.mem, halted := false, iff2 := s.iff1, iff1 := false
            pendingMaskable := s.pendingMaskable.tail
            samplePoint := true, eiDelay := 0
            cycles :=
              s.cycles +
                BitVec.ofNat 64
                  (match s.mode with
                    | .mode0 => s.config.cyc.intIm0
                    | .mode1 => s.config.cyc.intIm1
                    | .mode2 => s.config.cyc.intIm2) })

/-- O29. R262: the Mode0 decoder reaches the eight RST addresses and no other. -/
def Obligations.Mode0DecodesOnlyRestarts : Prop :=
  ∀ (v : Byte), (∀ p : RstTarget, v = (0xC7 ||| (p.code <<< 3)) → mode0Entry v = rstAddress p) ∧
    ((∀ p : RstTarget, v ≠ (0xC7 ||| (p.code <<< 3))) → mode0Entry v = 0x0038)

/-- O30. R253: the sample point is tested before the decrement; after EI's `EnableInterrupts` the first
`BeforeInstruction` reports none and the second reports one. -/
def Obligations.SamplePointBeforeDecrement : Prop :=
  ∀ s : State,
    (beforeInstruction s).samplePoint = decide (s.eiDelay = 0) ∧ (beforeInstruction s).eiDelay = 0 ∧
    beforeInstruction s =
      { s with
        samplePoint := (beforeInstruction s).samplePoint, eiDelay := (beforeInstruction s).eiDelay } ∧
    (beforeInstruction (enableInterrupts s)).samplePoint = false ∧
    (beforeInstruction (beforeInstruction (enableInterrupts s))).samplePoint = true

/-- O31. R256: an NMI latched and not triggered is taken whatever `iff1` is; else the head of the queue when `iff1` and the
sample point hold; else nothing, and nothing changes. -/
def Obligations.InterruptSelectionOrder : Prop :=
  ∀ s : State,
    (s.nmiPending = true → s.nmiTriggered = false →
      shouldProcessInterrupt s = (some nmiRequest, { s with nmiTriggered := true, nmiPending := false }) ∧
      nmiRequest.type = .nonMaskable) ∧
    (¬ (s.nmiPending = true ∧ s.nmiTriggered = false) →
      (∀ r rest, s.iff1 = true → s.samplePoint = true → s.pendingMaskable = r :: rest →
        shouldProcessInterrupt s = (some r, { s with pendingMaskable := rest })) ∧
      ((s.iff1 = false ∨ s.samplePoint = false ∨ s.pendingMaskable = []) → shouldProcessInterrupt s = (none, s)))

/-- O32. R258: the instruction byte and vector of each type and mode, after `iff2 <- iff1; iff1 <- false`. -/
def Obligations.ProcessInterruptVectors : Prop :=
  ∀ (r : InterruptRequest) (s : State),
    let saved : State := { s with iff2 := s.iff1, iff1 := false }
    (r.type = .nonMaskable → processInterrupt r s = ((0x00, 0x0066), { saved with nmiTriggered := false })) ∧
    (r.type = .maskable → s.mode = .mode0 → processInterrupt r s = ((r.vector, 0x0000), saved)) ∧
    (r.type = .maskable → s.mode = .mode1 → processInterrupt r s = ((0x00, 0x0038), saved)) ∧
    (r.type = .maskable → s.mode = .mode2 →
      processInterrupt r s =
        (((0x00 : Byte), (BitVec.zeroExtend 16 s.i <<< 8) ||| BitVec.zeroExtend 16 r.vector), saved))

/-- O33. R254: an NMI request sets the latch and nothing else; a maskable request is put after every entry of lower-or-equal
priority number and before the rest of a sorted queue, and nothing else changes. -/
def Obligations.RequestLatchesOrQueues : Prop :=
  ∀ (r : InterruptRequest) (s : State),
    (r.type = .nonMaskable → requestInterrupt r s = { s with nmiPending := true }) ∧
    (r.type = .maskable → queueSorted s.pendingMaskable = true →
      ∃ before after, s.pendingMaskable = before ++ after ∧
        (∀ x ∈ before, x.priority ≤ r.priority) ∧ (∀ x ∈ after, r.priority < x.priority) ∧
        requestInterrupt r s = { s with pendingMaskable := before ++ r :: after })

/-- O34. R49: after any requests into an empty queue, the queue is sorted ascending by priority, and the requests of each
priority stand in it in the order they arrived, none lost and none added. -/
def Obligations.QueueIsSortedAndStable : Prop :=
  ∀ (rs : List InterruptRequest) (s : State),
    s.pendingMaskable = [] → (∀ r ∈ rs, r.type = .maskable) →
    let q := (rs.foldl (fun u r => requestInterrupt r u) s).pendingMaskable
    queueSorted q = true ∧
    ∀ p : Int, q.filter (fun r => decide (r.priority = p)) = rs.filter (fun r => decide (r.priority = p))

/-- O35. The NMI latch (R47) is set by every NonMaskable request, further ones changing nothing, and is cleared when the NMI
is selected, and by Reset; no other step that goes on, no other request and no other host move changes it. That `Configure`
and `LoadRom` may be called in every state, after Reset as before, is the model's choice (LOG 26). -/
def Obligations.NmiLatchCoalesces : Prop :=
  ∀ s : State,
    (∀ r r2 : InterruptRequest, r.type = .nonMaskable → r2.type = .nonMaskable →
      (requestInterrupt r s).nmiPending = true ∧
      requestInterrupt r2 (requestInterrupt r s) = requestInterrupt r s) ∧
    (∀ r : InterruptRequest, r.type = .maskable → (requestInterrupt r s).nmiPending = s.nmiPending) ∧
    (∀ t, step s = .next t → t.nmiPending = (s.nmiPending && !s.takesNmi)) ∧
    (engineReset s).nmiPending = false ∧
    (∀ (m : HostMove) (t : State), m.apply s = some t → m ≠ .reset → (∀ r, m ≠ .request r) →
      t.nmiPending = s.nmiPending)

/-- O36. R320, R260: what Reset writes, and that it writes nothing else (R321: registers, memory and a latched failure keep
their values; the spec's decisions D13, D15). -/
def Obligations.ResetWritesOnlyItsList : Prop :=
  ∀ s : State,
    engineReset s =
      { s with
        pc := 0x0000, sp := s.config.spReset, halted := false, cycles := 0
        pendingMaskable := [], nmiPending := false, nmiTriggered := false, mode := .mode0, i := 0x00
        iff1 := false, iff2 := false, eiDelay := 0 }

/-- O37. The values R320 and R260 give for Reset stand in `State.reset`. The other clauses are the model's, not the spec's.
That `State.reset` is Reset of `State.powerOn`, for the parameters it carries, rests on the power-on values the model names
(LOG 24; the 8-bit registers, LOG 1; `samplePoint`, LOG 9; the ROM and RAM sizes, LOG 20). That every byte reads 0x00 is
deduced for an empty image (LOG 5). The cycle table it carries holds the default numbers of R335, which the spec takes from
general knowledge and offers as a default (LOG 3). -/
def Obligations.ResetStateIsEngineReset : Prop :=
  State.reset = engineReset (State.powerOn State.reset.config) ∧
  State.reset.pc = 0x0000 ∧ State.reset.sp = State.reset.config.spReset ∧ State.reset.halted = false ∧
  State.reset.cycles = 0 ∧ State.reset.iff1 = false ∧ State.reset.iff2 = false ∧ State.reset.mode = .mode0 ∧
  State.reset.i = 0 ∧ State.reset.eiDelay = 0 ∧ State.reset.nmiPending = false ∧ State.reset.nmiTriggered = false ∧
  State.reset.pendingMaskable = [] ∧ (∀ addr, State.reset.readByte addr = 0x00) ∧
  State.reset.config.cyc.costs =
    [4, 4, 7, 10, 6, 4, 7, 4, 4, 11, 15, 15, 6, 6, 10, 10, 12, 12, 7, 11, 10, 4, 4, 8, 14, 14, 11, 4, 4, 11, 13, 13, 19]

/-- O38. R62, R63: a byte written inside the RAM window is read back, a byte written outside is dropped, every other byte and
all other state is as it was. -/
def Obligations.WritesLandOnlyInRamWindow : Prop :=
  ∀ (s : State) (addr : Word) (v : Byte),
    (s.config.ramLo.toNat ≤ addr.toNat ∧ addr.toNat ≤ s.config.ramHi.toNat →
      (s.writeByte addr v).readByte addr = v ∧
      (∀ x, x ≠ addr → (s.writeByte addr v).readByte x = s.readByte x) ∧
      s.writeByte addr v = { s with mem := (s.writeByte addr v).mem }) ∧
    (¬ (s.config.ramLo.toNat ≤ addr.toNat ∧ addr.toNat ≤ s.config.ramHi.toNat) → s.writeByte addr v = s)

/-- O39. R66: a word access is two byte accesses, the low byte at the lower address, the address above 0xFFFF being 0x0000;
each byte of a write is kept or dropped on its own. -/
def Obligations.WordAccessesAreTwoByteAccesses : Prop :=
  ∀ (s : State) (addr : Word) (v : Word),
    s.readWord addr = s.readByte (addr + 1) ++ s.readByte addr ∧
    ((s.writeWord addr v).readByte addr =
      if s.config.inRam addr then v.extractLsb' 0 8 else s.readByte addr) ∧
    ((s.writeWord addr v).readByte (addr + 1) =
      if s.config.inRam (addr + 1) then v.extractLsb' 8 8 else s.readByte (addr + 1)) ∧
    ∀ x, x ≠ addr → x ≠ addr + 1 → (s.writeWord addr v).readByte x = s.readByte x

/-- O40. `Pop16()` after `Push16(v)` returns v and restores SP when both bytes were stored, the inference R217 draws. -/
def Obligations.PopAfterPushReturnsWord : Prop :=
  ∀ (s : State) (v : Word),
    s.config.inRam (s.sp - 1) = true → s.config.inRam (s.sp - 2) = true →
    (s.push16 v).pop16.1 = v ∧ (s.push16 v).pop16.2 = { s with mem := (s.push16 v).mem }

/-- O41. The laws the spec derives for the ALU (42_arith8 R167; at width 16 from R180): at both widths `carry × 2^w + res = a + b
+ c`, `res - 2^w × carry = a - b - c`, `zero` is `res = 0`, and a subtraction is the addition of the complement with
the carry inverted. -/
def Obligations.AluLawsAreExact : Prop :=
  (∀ (x y : Byte) (c : Bool),
    (if (add8 x y c).carry then 256 else 0) + (add8 x y c).res.toNat = x.toNat + y.toNat + (if c then 1 else 0) ∧
    ((sub8 x y c).res.toNat : Int) - (if (sub8 x y c).carry then 256 else 0) =
      x.toNat - y.toNat - (if c then 1 else 0) ∧
    (add8 x y c).zero = decide ((add8 x y c).res = 0) ∧ (sub8 x y c).zero = decide ((sub8 x y c).res = 0) ∧
    (sub8 x y c).res = (add8 x (255 - y) (!c)).res ∧ (sub8 x y c).carry = !(add8 x (255 - y) (!c)).carry) ∧
  (∀ (x y : Word) (c : Bool),
    (if (add16 x y c).carry then 65536 else 0) + (add16 x y c).res.toNat = x.toNat + y.toNat + (if c then 1 else 0) ∧
    ((sub16 x y c).res.toNat : Int) - (if (sub16 x y c).carry then 65536 else 0) =
      x.toNat - y.toNat - (if c then 1 else 0) ∧
    (add16 x y c).zero = decide ((add16 x y c).res = 0) ∧ (sub16 x y c).zero = decide ((sub16 x y c).res = 0) ∧
    (sub16 x y c).res = (add16 x (65535 - y) (!c)).res ∧ (sub16 x y c).carry = !(add16 x (65535 - y) (!c)).carry)

/-- O42. The decoder is the inverse of the encoder, both ways: a list of bytes decodes to an instruction and the bytes after
it exactly when it is the instruction's encoding followed by those bytes. -/
def Obligations.DecodeIsInverseOfEncode : Prop :=
  ∀ (bytes : List Byte) (i : Instr) (rest : List Byte), i.wf = true →
    (decode bytes = .ok i rest ↔ bytes = encode i ++ rest)

/-- O43. R104: the 74 first bytes with no decode entry, and R102: the 13 second bytes after 0xED that have one. -/
def Obligations.UnsupportedBytesAreRejected : Prop :=
  (∀ (op : Byte) (rest : List Byte),
    decode (op :: rest) = .unimplementedMain op ↔
      op ∈
        ([0x02, 0x12, 0x0A, 0x1A, 0x22, 0x2A, 0x32, 0x3A, 0x34, 0x35, 0x36] ++
         [0x46, 0x4E, 0x56, 0x5E, 0x66, 0x6E, 0x7E, 0x70, 0x71, 0x72, 0x73, 0x74, 0x75, 0x77] ++
         [0x86, 0x8E, 0x96, 0x9E, 0xA6, 0xAE, 0xB6, 0xBE, 0x07, 0x0F, 0x17, 0x1F, 0x27, 0x2F, 0x37, 0x3F] ++
         [0x08, 0xD9, 0xEB, 0xE3, 0x10, 0xC9, 0xC0, 0xC8, 0xD0, 0xD8, 0xE0, 0xE8, 0xF0, 0xF8] ++
         [0xCD, 0xC4, 0xCC, 0xD4, 0xDC, 0xE4, 0xEC, 0xF4, 0xFC, 0xE2, 0xEA, 0xF2, 0xFA, 0xE9] ++
         [0xD3, 0xDB, 0xCB, 0xDD, 0xFD] : List Byte)) ∧
  (∀ (op2 : Byte) (rest : List Byte),
    decode (0xED :: op2 :: rest) = .unimplementedEd op2 ↔
      op2 ∉
        ([0x42, 0x52, 0x62, 0x72, 0x4A, 0x5A, 0x6A, 0x7A, 0x45, 0x4D, 0x46, 0x56, 0x5E] : List Byte))

/-- O44. A few words written out from the spec's encodings decode to the instructions they stand for, one or more of each
family. -/
def Obligations.SampleWordsDecode : Prop :=
  decode [0x78] = .ok .ld_A_B [] ∧ decode [0x3E, 0x80] = .ok (.ld_A_n 0x80) [] ∧
  decode [0x01, 0x34, 0x12] = .ok (.ld_BC_nn 0x1234) [] ∧ decode [0x89] = .ok .adc_A_C [] ∧
  decode [0xED, 0x52] = .ok .sbc_HL_DE [] ∧ decode [0x04] = .ok .inc_B [] ∧
  decode [0xC2, 0x00, 0x20] = .ok (.jp_NZ_nn 0x2000) [] ∧ decode [0x20, 0xFB] = .ok (.jr_NZ_e 0xFB) [] ∧
  decode [0xF5] = .ok .push_AF [] ∧ decode [0xED, 0x4D] = .ok .reti [] ∧ decode [0xCF] = .ok .rst_08h [] ∧
  decode [0x76] = .ok .halt []

/-- O45. The invariant is kept by every step, from every state that meets it. -/
def Obligations.EveryStepKeepsInvariant : Prop :=
  ∀ s t : State, s.Inv → step s = .next t → t.Inv

/-- O46. The invariant holds after reset, and after Reset of any state with canonical memory and positive costs. -/
def Obligations.InvariantHoldsAfterReset : Prop :=
  State.reset.Inv ∧ ∀ s : State, s.mem.wf = true → s.config.wf = true → (engineReset s).Inv

/-- O47. The invariant is kept by everything the host and the requester may do between steps. -/
def Obligations.EveryHostMoveKeepsInvariant : Prop :=
  ∀ (m : HostMove) (s t : State), s.Inv → m.apply s = some t → t.Inv

/-- O48. R63, R71: no step changes a byte outside the RAM window, whatever the program does and whatever interrupt is taken;
nor does the host's write of a memory range. The window itself is changed by no step. -/
def Obligations.BytesOutsideRamWindowNeverChange : Prop :=
  ∀ (s : State) (addr : Word), s.config.inRam addr = false →
    (∀ t, step s = .next t → t.config = s.config ∧ t.readByte addr = s.readByte addr) ∧
    (∀ start bytes, (inspectWriteRange start bytes s).readByte addr = s.readByte addr)

/-- O49. The writes of R64: a step stores at SP - 1 and SP - 2 at most, and an instruction other than PUSH and RST stores
nothing. -/
def Obligations.OnlyStackWritesStore : Prop :=
  (∀ (s t : State) (addr : Word), step s = .next t → addr ≠ s.sp - 1 → addr ≠ s.sp - 2 →
    t.readByte addr = s.readByte addr) ∧
  (∀ (i : Instr) (s t : State), exec i s = .next t → (∀ qq, i ≠ .push qq) → (∀ p, i ≠ .rst p) →
    ∀ addr, t.readByte addr = s.readByte addr)

/-- O50. R31: every completed step performs exactly one `Cycles += n`, n a cost of the table, and n > 0 when the table's
costs are (the costs are a parameter, so that they are positive is a premise, part of the invariant). -/
def Obligations.EveryStepAddsOneCost : Prop :=
  ∀ s t : State, step s = .next t →
    ∃ n ∈ s.config.cyc.costs, t.cycles = s.cycles + BitVec.ofNat 64 n ∧ (s.config.wf = true → 0 < n)

/-- O51. No step but one that runs POP AF changes the six bits of F that are neither Zero nor Carry: R27 and R219, the spec's
decision D6 (LOG 12). (Between steps the inspection surface may load F whole, R25 and R300; O60 speaks of it.) -/
def Obligations.StepsKeepReservedFlagBitsExceptPopAF : Prop :=
  ∀ (s t : State), step s = .next t →
    (∀ rest, s.quiet → s.halted = false → decode s.bytesAtPC ≠ .ok .pop_AF rest) →
    ∀ k, k ≠ 6 → k ≠ 0 → t.f.getLsbD k = s.f.getLsbD k

/-- O52. The frame of a step by its phases, the inference R127 draws: which instruction may write which control state. -/
def Obligations.InstructionsWriteOnlyTheirControlState : Prop :=
  ∀ (i : Instr) (s t : State), exec i s = .next t →
    t.i = s.i ∧ t.nmiPending = s.nmiPending ∧ t.nmiTriggered = s.nmiTriggered ∧
    t.pendingMaskable = s.pendingMaskable ∧ t.samplePoint = s.samplePoint ∧ t.fault = s.fault ∧
    t.config = s.config ∧ t.romSize = s.romSize ∧ t.ramSize = s.ramSize ∧
    ((∀ m, i ≠ .im m) → t.mode = s.mode) ∧
    (i ≠ .ei → i ≠ .di → t.iff2 = s.iff2 ∧ t.eiDelay = s.eiDelay) ∧
    (i ≠ .ei → i ≠ .di → i ≠ .reti → i ≠ .retn → t.iff1 = s.iff1) ∧
    (i ≠ .halt → t.halted = s.halted)

/-- O53. R29: Halted is set by HALT and cleared by every interrupt entry and by Reset; no other step that goes on and no other
host move changes it (R300 gives the inspection surface no access to it; that `Configure` and `LoadRom` may be called in
every state is LOG 26). -/
def Obligations.HaltedIsSetByHaltAndClearedByEntry : Prop :=
  (∀ s t : State, step s = .next t →
    (¬ s.quiet → t.halted = false) ∧
    (s.quiet → s.halted = true → t.halted = true ∧ t.pc = s.pc) ∧
    (s.quiet → s.halted = false → (t.halted = true ↔ ∃ rest, decode s.bytesAtPC = .ok .halt rest))) ∧
  (∀ s : State, (engineReset s).halted = false) ∧
  ∀ (m : HostMove) (s t : State), m.apply s = some t → m ≠ .reset → t.halted = s.halted

/-- O54. The EI shadow (70_reset_and_hazards section 3, 60_exceptions section 2): after a step that executes EI no maskable
interrupt is taken at the next step; and the delay is armed after no other step, so that the shadow is one step long. -/
def Obligations.EiShadowLastsOneStep : Prop :=
  (∀ s t : State, exec .ei s = .next t → t.takesMaskable = none ∧ t.iff1 = true ∧ t.iff2 = true) ∧
  (∀ s t : State, step s = .next t → t.eiDelay ≠ 0 →
    s.quiet ∧ s.halted = false ∧ ∃ rest, decode s.bytesAtPC = .ok .ei rest)

/-- O55. A handler's return resumes the program exactly, the inference R266 and R267 draw. RETI or RETN right after an entry
whose two stack bytes were stored goes back to the interrupted PC and SP with the enable state and every register as they
were before the entry. Beside what the table of R265 says an entry clears or saves over (Halted, `iff2`, the NMI's
`nmiTriggered`), all that is left behind is the cost of the two and, in memory, the two bytes the entry pushed below SP:
every other byte is as it was. -/
def Obligations.ReturnFromHandlerResumesProgram : Prop :=
  ∀ (r : InterruptRequest) (s : State),
    s.config.inRam (s.sp - 1) = true → s.config.inRam (s.sp - 2) = true →
    ∀ (i : Instr) (cost : Nat),
      (i = .reti ∧ cost = s.config.cyc.reti) ∨ (i = .retn ∧ cost = s.config.cyc.retn) →
    ∃ t, exec i (handleInterrupt r s) = .next t ∧ s.pushed t s.pc ∧
      t =
        { s with
          halted := false, iff2 := s.iff1, mem := t.mem
          nmiTriggered := if r.type = .nonMaskable then false else s.nmiTriggered
          cycles := (handleInterrupt r s).cycles + BitVec.ofNat 64 cost }

/-- O56. The one-deep save, the caution R333 draws: an NMI taken while `iff1` is false loses the enable state, so that the
return from its handler leaves maskable interrupts disabled and so does the return after that one. -/
def Obligations.NmiInsideHandlerLosesEnableState : Prop :=
  ∀ s t : State, s.fault = none → s.takesNmi = true → s.iff1 = false → step s = .next t →
    t.iff2 = false ∧
    ∀ i : Instr, i = .reti ∨ i = .retn →
    ∀ u : State, u.iff2 = t.iff2 → ∀ v, exec i u = .next v → v.iff1 = false ∧ v.iff2 = false

/-- O57. R26: of the instructions, only PUSH AF reads the reserved bits of F. (The inspection surface, which R26 names as the
other reader of all of F, is no instruction; O60 speaks of it.) Two states that differ in those bits alone, run on any
instruction but PUSH AF, differ afterwards in nothing but F, and in F only in those bits. -/
def Obligations.ReservedFlagBitsAreReadOnlyByPushAF : Prop :=
  ∀ (i : Instr) (s : State) (f : Byte),
    i ≠ .push_AF → f.getLsbD 6 = s.f.getLsbD 6 → f.getLsbD 0 = s.f.getLsbD 0 →
    ∀ t u, exec i s = .next t → exec i { s with f := f } = .next u →
      u = { t with f := u.f } ∧ u.f.getLsbD 6 = t.f.getLsbD 6 ∧ u.f.getLsbD 0 = t.f.getLsbD 0

/-- O58. Cycles and the cycle table are read by nothing: a step of a machine with another count and another table goes the
same way in everything else, failures included. -/
def Obligations.CyclesInfluenceNothingElse : Prop :=
  ∀ (s : State) (count : BitVec 64) (table : Cyc),
    let s2 : State := { s with cycles := count, config := { s.config with cyc := table } }
    (∀ t, step s = .next t →
      ∃ u, step s2 = .next u ∧
        u = { t with cycles := u.cycles, config := { t.config with cyc := table } }) ∧
    (∀ r, step s = .fault r → step s2 = .fault r)

/-- O59. `LoadRom(bytes)` (R61): `mem[a] = bytes[a]` below the image's length and zero elsewhere, the length the new ROM
size, nothing else changed, and memory in canonical form; an image that does not fit has no state (LOG 20). Of a state that no
Reset follows, the statement is the model's choice (LOG 26). -/
def Obligations.LoadRomFillsMemory : Prop :=
  ∀ (bytes : List Byte) (s : State),
    (bytes.length ≤ 65536 →
      ∃ t, loadRom bytes s = some t ∧ (∀ addr : Word, t.readByte addr = bytes.getD addr.toNat 0x00) ∧
        t.mem.wf = true ∧ t = { s with mem := t.mem, romSize := bytes.length }) ∧
    (65536 < bytes.length → loadRom bytes s = none)

/-- O60. The host's moves that are neither Reset, `LoadRom` nor a request: what each writes, and that it leaves everything
else. A register written through the inspection surface reads back as the value written, cut to the register's width
(R300); `SetVectorRegister` writes I (R263), `SetInterruptMode` the mode (R255, R302), `Configure` the sizes and the
platform's window and SP_RESET for them (R61; LOG 20, and LOG 26 for a call after Reset). A memory range is written byte by
byte, each byte subject to the RAM window, and read byte by byte (R300); that it goes on at 0x0000 after 0xFFFF is the model's
choice (LOG 22), and 65536 bytes name every address once. No move but Reset and `SetVectorRegister` writes I (R44). -/
def Obligations.HostMovesWriteWhatTheyName : Prop :=
  ∀ s : State,
    (∀ (r : InspectReg) (v : Word), ∃ t, HostMove.apply (.writeReg r v) s = some t ∧
      inspectRead r t = (if r.wide then v else v &&& 0x00FF) ∧
      (∀ q, q ≠ r → inspectRead q t = inspectRead q s) ∧
      t =
        { s with
          a := t.a, f := t.f, b := t.b, c := t.c, d := t.d, e := t.e, h := t.h, l := t.l, sp := t.sp, pc := t.pc }) ∧
    (∀ v : Byte, HostMove.apply (.setVectorRegister v) s = some { s with i := v }) ∧
    (∀ m : IntMode, HostMove.apply (.setInterruptMode m) s = some { s with mode := m }) ∧
    (∀ (romSize ramSize : Nat) (ramLo ramHi spReset : Word),
      HostMove.apply (.configure romSize ramSize ramLo ramHi spReset) s =
        some
          { s with
            romSize := romSize, ramSize := ramSize
            config := { s.config with ramLo := ramLo, ramHi := ramHi, spReset := spReset } }) ∧
    (∀ (start : Word) (bytes : List Byte), ∃ t, HostMove.apply (.writeMem start bytes) s = some t ∧
      t = { s with mem := t.mem } ∧
      (bytes.length ≤ 65536 → ∀ addr : Word,
        t.readByte addr =
          if (addr - start).toNat < bytes.length ∧ s.config.inRam addr = true then bytes.getD (addr - start).toNat 0x00
          else s.readByte addr)) ∧
    (∀ (start : Word) (n : Nat),
      inspectReadRange start n s = (List.range n).map fun k => s.readByte (start + BitVec.ofNat 16 k)) ∧
    (∀ (m : HostMove) (t : State), m.apply s = some t → m ≠ .reset → (∀ v, m ≠ .setVectorRegister v) → t.i = s.i)
end

