-- ==== Sys2Proof/Laws/Bits.lean ====
section
/-!
SUPPORT. Halves and concatenation of words are inverse to each other (00_scope R7, R8); neighbouring addresses differ.
-/

namespace Sys2Proof.Machine

theorem getLsbD_wordOf (hi lo : Byte) (k : Nat) :
    (wordOf hi lo).getLsbD k = if k < 8 then lo.getLsbD k else hi.getLsbD (k - 8) :=
  BitVec.getLsbD_append

@[simp] theorem hiByte_wordOf (hi lo : Byte) : hiByte (wordOf hi lo) = hi := by
  apply BitVec.eq_of_getLsbD_eq
  intro k hk
  simp [hiByte, getLsbD_wordOf, hk]

@[simp] theorem loByte_wordOf (hi lo : Byte) : loByte (wordOf hi lo) = lo := by
  apply BitVec.eq_of_getLsbD_eq
  intro k hk
  simp [loByte, getLsbD_wordOf, hk]

@[simp] theorem wordOf_hiByte_loByte (v : Word) : wordOf (hiByte v) (loByte v) = v := by
  apply BitVec.eq_of_getLsbD_eq
  intro k hk
  by_cases h : k < 8
  · simp [hiByte, loByte, getLsbD_wordOf, h]
  · simp [hiByte, loByte, getLsbD_wordOf, h, show k - 8 < 8 by omega, show 8 + (k - 8) = k by omega]

theorem add_one_ne (x : Word) : x + 1 ≠ x := by bv_omega

theorem sub_one_ne_sub_two (x : Word) : x - 1 ≠ x - 2 := by bv_omega

theorem sub_two_add_one (x : Word) : x - 2 + 1 = x - 1 := by bv_omega

theorem sub_two_add_two (x : Word) : x - 2 + 2 = x := by bv_omega

theorem sub_one_sub_one (x : Word) : x - 1 - 1 = x - 2 := by bv_omega

theorem add_one_add_one (x : Word) : x + 1 + 1 = x + 2 := by bv_omega

end Sys2Proof.Machine
end

