-- ==== Sys2Proof/Laws/State.lean ====
section
/-!
SUPPORT. What each named update of the state writes and what it leaves, field by field, so that no later proof unfolds a
record update. A conjunction tagged simp gives one rewriting rule for each field.
-/

namespace Sys2Proof.Machine

@[simp] theorem setPC_fields (s : State) (v : Word) :
    (s.setPC v).a = s.a ∧ (s.setPC v).f = s.f ∧ (s.setPC v).b = s.b ∧ (s.setPC v).c = s.c ∧ (s.setPC v).d = s.d ∧
    (s.setPC v).e = s.e ∧ (s.setPC v).h = s.h ∧ (s.setPC v).l = s.l ∧ (s.setPC v).sp = s.sp ∧ (s.setPC v).pc = v ∧
    (s.setPC v).halted = s.halted ∧ (s.setPC v).cycles = s.cycles ∧ (s.setPC v).fault = s.fault ∧
    (s.setPC v).iff1 = s.iff1 ∧ (s.setPC v).iff2 = s.iff2 ∧ (s.setPC v).mode = s.mode ∧ (s.setPC v).i = s.i ∧
    (s.setPC v).eiDelay = s.eiDelay ∧ (s.setPC v).samplePoint = s.samplePoint ∧
    (s.setPC v).nmiPending = s.nmiPending ∧ (s.setPC v).nmiTriggered = s.nmiTriggered ∧
    (s.setPC v).pendingMaskable = s.pendingMaskable ∧ (s.setPC v).mem = s.mem ∧ (s.setPC v).romSize = s.romSize ∧
    (s.setPC v).ramSize = s.ramSize ∧ (s.setPC v).config = s.config := by
  refine ⟨rfl, rfl, rfl, rfl, rfl, rfl, rfl, rfl, rfl, rfl, rfl, rfl, rfl, rfl, rfl, rfl, rfl, rfl, rfl, rfl, rfl, rfl, rfl, rfl, rfl, rfl⟩

@[simp] theorem setSP_fields (s : State) (v : Word) :
    (s.setSP v).a = s.a ∧ (s.setSP v).f = s.f ∧ (s.setSP v).b = s.b ∧ (s.setSP v).c = s.c ∧ (s.setSP v).d = s.d ∧
    (s.setSP v).e = s.e ∧ (s.setSP v).h = s.h ∧ (s.setSP v).l = s.l ∧ (s.setSP v).sp = v ∧ (s.setSP v).pc = s.pc ∧
    (s.setSP v).halted = s.halted ∧ (s.setSP v).cycles = s.cycles ∧ (s.setSP v).fault = s.fault ∧
    (s.setSP v).iff1 = s.iff1 ∧ (s.setSP v).iff2 = s.iff2 ∧ (s.setSP v).mode = s.mode ∧ (s.setSP v).i = s.i ∧
    (s.setSP v).eiDelay = s.eiDelay ∧ (s.setSP v).samplePoint = s.samplePoint ∧
    (s.setSP v).nmiPending = s.nmiPending ∧ (s.setSP v).nmiTriggered = s.nmiTriggered ∧
    (s.setSP v).pendingMaskable = s.pendingMaskable ∧ (s.setSP v).mem = s.mem ∧ (s.setSP v).romSize = s.romSize ∧
    (s.setSP v).ramSize = s.ramSize ∧ (s.setSP v).config = s.config := by
  refine ⟨rfl, rfl, rfl, rfl, rfl, rfl, rfl, rfl, rfl, rfl, rfl, rfl, rfl, rfl, rfl, rfl, rfl, rfl, rfl, rfl, rfl, rfl, rfl, rfl, rfl, rfl⟩

@[simp] theorem setF_fields (s : State) (v : Byte) :
    (s.setF v).a = s.a ∧ (s.setF v).f = v ∧ (s.setF v).b = s.b ∧ (s.setF v).c = s.c ∧ (s.setF v).d = s.d ∧
    (s.setF v).e = s.e ∧ (s.setF v).h = s.h ∧ (s.setF v).l = s.l ∧ (s.setF v).sp = s.sp ∧ (s.setF v).pc = s.pc ∧
    (s.setF v).halted = s.halted ∧ (s.setF v).cycles = s.cycles ∧ (s.setF v).fault = s.fault ∧
    (s.setF v).iff1 = s.iff1 ∧ (s.setF v).iff2 = s.iff2 ∧ (s.setF v).mode = s.mode ∧ (s.setF v).i = s.i ∧
    (s.setF v).eiDelay = s.eiDelay ∧ (s.setF v).samplePoint = s.samplePoint ∧
    (s.setF v).nmiPending = s.nmiPending ∧ (s.setF v).nmiTriggered = s.nmiTriggered ∧
    (s.setF v).pendingMaskable = s.pendingMaskable ∧ (s.setF v).mem = s.mem ∧ (s.setF v).romSize = s.romSize ∧
    (s.setF v).ramSize = s.ramSize ∧ (s.setF v).config = s.config := by
  refine ⟨rfl, rfl, rfl, rfl, rfl, rfl, rfl, rfl, rfl, rfl, rfl, rfl, rfl, rfl, rfl, rfl, rfl, rfl, rfl, rfl, rfl, rfl, rfl, rfl, rfl, rfl⟩

@[simp] theorem setHalted_fields (s : State) (v : Bool) :
    (s.setHalted v).a = s.a ∧ (s.setHalted v).f = s.f ∧ (s.setHalted v).b = s.b ∧ (s.setHalted v).c = s.c ∧
    (s.setHalted v).d = s.d ∧ (s.setHalted v).e = s.e ∧ (s.setHalted v).h = s.h ∧ (s.setHalted v).l = s.l ∧
    (s.setHalted v).sp = s.sp ∧ (s.setHalted v).pc = s.pc ∧ (s.setHalted v).halted = v ∧
    (s.setHalted v).cycles = s.cycles ∧ (s.setHalted v).fault = s.fault ∧ (s.setHalted v).iff1 = s.iff1 ∧
    (s.setHalted v).iff2 = s.iff2 ∧ (s.setHalted v).mode = s.mode ∧ (s.setHalted v).i = s.i ∧
    (s.setHalted v).eiDelay = s.eiDelay ∧ (s.setHalted v).samplePoint = s.samplePoint ∧
    (s.setHalted v).nmiPending = s.nmiPending ∧ (s.setHalted v).nmiTriggered = s.nmiTriggered ∧
    (s.setHalted v).pendingMaskable = s.pendingMaskable ∧ (s.setHalted v).mem = s.mem ∧
    (s.setHalted v).romSize = s.romSize ∧ (s.setHalted v).ramSize = s.ramSize ∧ (s.setHalted v).config = s.config := by
  refine ⟨rfl, rfl, rfl, rfl, rfl, rfl, rfl, rfl, rfl, rfl, rfl, rfl, rfl, rfl, rfl, rfl, rfl, rfl, rfl, rfl, rfl, rfl, rfl, rfl, rfl, rfl⟩

@[simp] theorem addCycles_fields (s : State) (n : Nat) :
    (s.addCycles n).a = s.a ∧ (s.addCycles n).f = s.f ∧ (s.addCycles n).b = s.b ∧ (s.addCycles n).c = s.c ∧
    (s.addCycles n).d = s.d ∧ (s.addCycles n).e = s.e ∧ (s.addCycles n).h = s.h ∧ (s.addCycles n).l = s.l ∧
    (s.addCycles n).sp = s.sp ∧ (s.addCycles n).pc = s.pc ∧ (s.addCycles n).halted = s.halted ∧
    (s.addCycles n).cycles = s.cycles + BitVec.ofNat 64 n ∧ (s.addCycles n).fault = s.fault ∧
    (s.addCycles n).iff1 = s.iff1 ∧ (s.addCycles n).iff2 = s.iff2 ∧ (s.addCycles n).mode = s.mode ∧
    (s.addCycles n).i = s.i ∧ (s.addCycles n).eiDelay = s.eiDelay ∧ (s.addCycles n).samplePoint = s.samplePoint ∧
    (s.addCycles n).nmiPending = s.nmiPending ∧ (s.addCycles n).nmiTriggered = s.nmiTriggered ∧
    (s.addCycles n).pendingMaskable = s.pendingMaskable ∧ (s.addCycles n).mem = s.mem ∧
    (s.addCycles n).romSize = s.romSize ∧ (s.addCycles n).ramSize = s.ramSize ∧ (s.addCycles n).config = s.config := by
  refine ⟨rfl, rfl, rfl, rfl, rfl, rfl, rfl, rfl, rfl, rfl, rfl, rfl, rfl, rfl, rfl, rfl, rfl, rfl, rfl, rfl, rfl, rfl, rfl, rfl, rfl, rfl⟩

@[simp] theorem setMem_fields (s : State) (m : Memory) :
    (s.setMem m).a = s.a ∧ (s.setMem m).f = s.f ∧ (s.setMem m).b = s.b ∧ (s.setMem m).c = s.c ∧
    (s.setMem m).d = s.d ∧ (s.setMem m).e = s.e ∧ (s.setMem m).h = s.h ∧ (s.setMem m).l = s.l ∧
    (s.setMem m).sp = s.sp ∧ (s.setMem m).pc = s.pc ∧ (s.setMem m).halted = s.halted ∧
    (s.setMem m).cycles = s.cycles ∧ (s.setMem m).fault = s.fault ∧ (s.setMem m).iff1 = s.iff1 ∧
    (s.setMem m).iff2 = s.iff2 ∧ (s.setMem m).mode = s.mode ∧ (s.setMem m).i = s.i ∧
    (s.setMem m).eiDelay = s.eiDelay ∧ (s.setMem m).samplePoint = s.samplePoint ∧
    (s.setMem m).nmiPending = s.nmiPending ∧ (s.setMem m).nmiTriggered = s.nmiTriggered ∧
    (s.setMem m).pendingMaskable = s.pendingMaskable ∧ (s.setMem m).mem = m ∧ (s.setMem m).romSize = s.romSize ∧
    (s.setMem m).ramSize = s.ramSize ∧ (s.setMem m).config = s.config := by
  refine ⟨rfl, rfl, rfl, rfl, rfl, rfl, rfl, rfl, rfl, rfl, rfl, rfl, rfl, rfl, rfl, rfl, rfl, rfl, rfl, rfl, rfl, rfl, rfl, rfl, rfl, rfl⟩

@[simp] theorem enableInterrupts_fields (s : State) :
    (enableInterrupts s).a = s.a ∧ (enableInterrupts s).f = s.f ∧ (enableInterrupts s).b = s.b ∧
    (enableInterrupts s).c = s.c ∧ (enableInterrupts s).d = s.d ∧ (enableInterrupts s).e = s.e ∧
    (enableInterrupts s).h = s.h ∧ (enableInterrupts s).l = s.l ∧ (enableInterrupts s).sp = s.sp ∧
    (enableInterrupts s).pc = s.pc ∧ (enableInterrupts s).halted = s.halted ∧
    (enableInterrupts s).cycles = s.cycles ∧ (enableInterrupts s).fault = s.fault ∧
    (enableInterrupts s).iff1 = true ∧ (enableInterrupts s).iff2 = true ∧ (enableInterrupts s).mode = s.mode ∧
    (enableInterrupts s).i = s.i ∧ (enableInterrupts s).eiDelay = 1 ∧
    (enableInterrupts s).samplePoint = s.samplePoint ∧ (enableInterrupts s).nmiPending = s.nmiPending ∧
    (enableInterrupts s).nmiTriggered = s.nmiTriggered ∧ (enableInterrupts s).pendingMaskable = s.pendingMaskable ∧
    (enableInterrupts s).mem = s.mem ∧ (enableInterrupts s).romSize = s.romSize ∧
    (enableInterrupts s).ramSize = s.ramSize ∧ (enableInterrupts s).config = s.config := by
  refine ⟨rfl, rfl, rfl, rfl, rfl, rfl, rfl, rfl, rfl, rfl, rfl, rfl, rfl, rfl, rfl, rfl, rfl, rfl, rfl, rfl, rfl, rfl, rfl, rfl, rfl, rfl⟩

@[simp] theorem disableInterrupts_fields (s : State) :
    (disableInterrupts s).a = s.a ∧ (disableInterrupts s).f = s.f ∧ (disableInterrupts s).b = s.b ∧
    (disableInterrupts s).c = s.c ∧ (disableInterrupts s).d = s.d ∧ (disableInterrupts s).e = s.e ∧
    (disableInterrupts s).h = s.h ∧ (disableInterrupts s).l = s.l ∧ (disableInterrupts s).sp = s.sp ∧
    (disableInterrupts s).pc = s.pc ∧ (disableInterrupts s).halted = s.halted ∧
    (disableInterrupts s).cycles = s.cycles ∧ (disableInterrupts s).fault = s.fault ∧
    (disableInterrupts s).iff1 = false ∧ (disableInterrupts s).iff2 = false ∧ (disableInterrupts s).mode = s.mode ∧
    (disableInterrupts s).i = s.i ∧ (disableInterrupts s).eiDelay = 0 ∧
    (disableInterrupts s).samplePoint = s.samplePoint ∧ (disableInterrupts s).nmiPending = s.nmiPending ∧
    (disableInterrupts s).nmiTriggered = s.nmiTriggered ∧
    (disableInterrupts s).pendingMaskable = s.pendingMaskable ∧ (disableInterrupts s).mem = s.mem ∧
    (disableInterrupts s).romSize = s.romSize ∧ (disableInterrupts s).ramSize = s.ramSize ∧
    (disableInterrupts s).config = s.config := by
  refine ⟨rfl, rfl, rfl, rfl, rfl, rfl, rfl, rfl, rfl, rfl, rfl, rfl, rfl, rfl, rfl, rfl, rfl, rfl, rfl, rfl, rfl, rfl, rfl, rfl, rfl, rfl⟩

@[simp] theorem setInterruptMode_fields (m : IntMode) (s : State) :
    (setInterruptMode m s).a = s.a ∧ (setInterruptMode m s).f = s.f ∧ (setInterruptMode m s).b = s.b ∧
    (setInterruptMode m s).c = s.c ∧ (setInterruptMode m s).d = s.d ∧ (setInterruptMode m s).e = s.e ∧
    (setInterruptMode m s).h = s.h ∧ (setInterruptMode m s).l = s.l ∧ (setInterruptMode m s).sp = s.sp ∧
    (setInterruptMode m s).pc = s.pc ∧ (setInterruptMode m s).halted = s.halted ∧
    (setInterruptMode m s).cycles = s.cycles ∧ (setInterruptMode m s).fault = s.fault ∧
    (setInterruptMode m s).iff1 = s.iff1 ∧ (setInterruptMode m s).iff2 = s.iff2 ∧ (setInterruptMode m s).mode = m ∧
    (setInterruptMode m s).i = s.i ∧ (setInterruptMode m s).eiDelay = s.eiDelay ∧
    (setInterruptMode m s).samplePoint = s.samplePoint ∧ (setInterruptMode m s).nmiPending = s.nmiPending ∧
    (setInterruptMode m s).nmiTriggered = s.nmiTriggered ∧
    (setInterruptMode m s).pendingMaskable = s.pendingMaskable ∧ (setInterruptMode m s).mem = s.mem ∧
    (setInterruptMode m s).romSize = s.romSize ∧ (setInterruptMode m s).ramSize = s.ramSize ∧
    (setInterruptMode m s).config = s.config := by
  refine ⟨rfl, rfl, rfl, rfl, rfl, rfl, rfl, rfl, rfl, rfl, rfl, rfl, rfl, rfl, rfl, rfl, rfl, rfl, rfl, rfl, rfl, rfl, rfl, rfl, rfl, rfl⟩

@[simp] theorem returnFromInterrupt_fields (s : State) :
    (returnFromInterrupt s).a = s.a ∧ (returnFromInterrupt s).f = s.f ∧ (returnFromInterrupt s).b = s.b ∧
    (returnFromInterrupt s).c = s.c ∧ (returnFromInterrupt s).d = s.d ∧ (returnFromInterrupt s).e = s.e ∧
    (returnFromInterrupt s).h = s.h ∧ (returnFromInterrupt s).l = s.l ∧ (returnFromInterrupt s).sp = s.sp ∧
    (returnFromInterrupt s).pc = s.pc ∧ (returnFromInterrupt s).halted = s.halted ∧
    (returnFromInterrupt s).cycles = s.cycles ∧ (returnFromInterrupt s).fault = s.fault ∧
    (returnFromInterrupt s).iff1 = s.iff2 ∧ (returnFromInterrupt s).iff2 = s.iff2 ∧
    (returnFromInterrupt s).mode = s.mode ∧ (returnFromInterrupt s).i = s.i ∧
    (returnFromInterrupt s).eiDelay = s.eiDelay ∧ (returnFromInterrupt s).samplePoint = s.samplePoint ∧
    (returnFromInterrupt s).nmiPending = s.nmiPending ∧ (returnFromInterrupt s).nmiTriggered = s.nmiTriggered ∧
    (returnFromInterrupt s).pendingMaskable = s.pendingMaskable ∧ (returnFromInterrupt s).mem = s.mem ∧
    (returnFromInterrupt s).romSize = s.romSize ∧ (returnFromInterrupt s).ramSize = s.ramSize ∧
    (returnFromInterrupt s).config = s.config := by
  refine ⟨rfl, rfl, rfl, rfl, rfl, rfl, rfl, rfl, rfl, rfl, rfl, rfl, rfl, rfl, rfl, rfl, rfl, rfl, rfl, rfl, rfl, rfl, rfl, rfl, rfl, rfl⟩

@[simp] theorem returnFromNonMaskableInterrupt_fields (s : State) :
    (returnFromNonMaskableInterrupt s).a = s.a ∧ (returnFromNonMaskableInterrupt s).f = s.f ∧
    (returnFromNonMaskableInterrupt s).b = s.b ∧ (returnFromNonMaskableInterrupt s).c = s.c ∧
    (returnFromNonMaskableInterrupt s).d = s.d ∧ (returnFromNonMaskableInterrupt s).e = s.e ∧
    (returnFromNonMaskableInterrupt s).h = s.h ∧ (returnFromNonMaskableInterrupt s).l = s.l ∧
    (returnFromNonMaskableInterrupt s).sp = s.sp ∧ (returnFromNonMaskableInterrupt s).pc = s.pc ∧
    (returnFromNonMaskableInterrupt s).halted = s.halted ∧ (returnFromNonMaskableInterrupt s).cycles = s.cycles ∧
    (returnFromNonMaskableInterrupt s).fault = s.fault ∧ (returnFromNonMaskableInterrupt s).iff1 = s.iff2 ∧
    (returnFromNonMaskableInterrupt s).iff2 = s.iff2 ∧ (returnFromNonMaskableInterrupt s).mode = s.mode ∧
    (returnFromNonMaskableInterrupt s).i = s.i ∧ (returnFromNonMaskableInterrupt s).eiDelay = s.eiDelay ∧
    (returnFromNonMaskableInterrupt s).samplePoint = s.samplePoint ∧
    (returnFromNonMaskableInterrupt s).nmiPending = s.nmiPending ∧
    (returnFromNonMaskableInterrupt s).nmiTriggered = s.nmiTriggered ∧
    (returnFromNonMaskableInterrupt s).pendingMaskable = s.pendingMaskable ∧
    (returnFromNonMaskableInterrupt s).mem = s.mem ∧ (returnFromNonMaskableInterrupt s).romSize = s.romSize ∧
    (returnFromNonMaskableInterrupt s).ramSize = s.ramSize ∧ (returnFromNonMaskableInterrupt s).config = s.config := by
  refine ⟨rfl, rfl, rfl, rfl, rfl, rfl, rfl, rfl, rfl, rfl, rfl, rfl, rfl, rfl, rfl, rfl, rfl, rfl, rfl, rfl, rfl, rfl, rfl, rfl, rfl, rfl⟩

@[simp] theorem beforeInstruction_fields (s : State) :
    (beforeInstruction s).a = s.a ∧ (beforeInstruction s).f = s.f ∧ (beforeInstruction s).b = s.b ∧
    (beforeInstruction s).c = s.c ∧ (beforeInstruction s).d = s.d ∧ (beforeInstruction s).e = s.e ∧
    (beforeInstruction s).h = s.h ∧ (beforeInstruction s).l = s.l ∧ (beforeInstruction s).sp = s.sp ∧
    (beforeInstruction s).pc = s.pc ∧ (beforeInstruction s).halted = s.halted ∧
    (beforeInstruction s).cycles = s.cycles ∧ (beforeInstruction s).fault = s.fault ∧
    (beforeInstruction s).iff1 = s.iff1 ∧ (beforeInstruction s).iff2 = s.iff2 ∧
    (beforeInstruction s).mode = s.mode ∧ (beforeInstruction s).i = s.i ∧
    (beforeInstruction s).eiDelay = lowerEiDelay s.eiDelay ∧
    (beforeInstruction s).samplePoint = decide (s.eiDelay = 0) ∧ (beforeInstruction s).nmiPending = s.nmiPending ∧
    (beforeInstruction s).nmiTriggered = s.nmiTriggered ∧
    (beforeInstruction s).pendingMaskable = s.pendingMaskable ∧ (beforeInstruction s).mem = s.mem ∧
    (beforeInstruction s).romSize = s.romSize ∧ (beforeInstruction s).ramSize = s.ramSize ∧
    (beforeInstruction s).config = s.config := by
  refine ⟨rfl, rfl, rfl, rfl, rfl, rfl, rfl, rfl, rfl, rfl, rfl, rfl, rfl, rfl, rfl, rfl, rfl, rfl, rfl, rfl, rfl, rfl, rfl, rfl, rfl, rfl⟩

@[simp] theorem setVectorRegister_fields (v : Byte) (s : State) :
    (setVectorRegister v s).a = s.a ∧ (setVectorRegister v s).f = s.f ∧ (setVectorRegister v s).b = s.b ∧
    (setVectorRegister v s).c = s.c ∧ (setVectorRegister v s).d = s.d ∧ (setVectorRegister v s).e = s.e ∧
    (setVectorRegister v s).h = s.h ∧ (setVectorRegister v s).l = s.l ∧ (setVectorRegister v s).sp = s.sp ∧
    (setVectorRegister v s).pc = s.pc ∧ (setVectorRegister v s).halted = s.halted ∧
    (setVectorRegister v s).cycles = s.cycles ∧ (setVectorRegister v s).fault = s.fault ∧
    (setVectorRegister v s).iff1 = s.iff1 ∧ (setVectorRegister v s).iff2 = s.iff2 ∧
    (setVectorRegister v s).mode = s.mode ∧ (setVectorRegister v s).i = v ∧
    (setVectorRegister v s).eiDelay = s.eiDelay ∧ (setVectorRegister v s).samplePoint = s.samplePoint ∧
    (setVectorRegister v s).nmiPending = s.nmiPending ∧ (setVectorRegister v s).nmiTriggered = s.nmiTriggered ∧
    (setVectorRegister v s).pendingMaskable = s.pendingMaskable ∧ (setVectorRegister v s).mem = s.mem ∧
    (setVectorRegister v s).romSize = s.romSize ∧ (setVectorRegister v s).ramSize = s.ramSize ∧
    (setVectorRegister v s).config = s.config := by
  refine ⟨rfl, rfl, rfl, rfl, rfl, rfl, rfl, rfl, rfl, rfl, rfl, rfl, rfl, rfl, rfl, rfl, rfl, rfl, rfl, rfl, rfl, rfl, rfl, rfl, rfl, rfl⟩

@[simp] theorem controllerReset_fields (s : State) :
    (controllerReset s).a = s.a ∧ (controllerReset s).f = s.f ∧ (controllerReset s).b = s.b ∧
    (controllerReset s).c = s.c ∧ (controllerReset s).d = s.d ∧ (controllerReset s).e = s.e ∧
    (controllerReset s).h = s.h ∧ (controllerReset s).l = s.l ∧ (controllerReset s).sp = s.sp ∧
    (controllerReset s).pc = s.pc ∧ (controllerReset s).halted = s.halted ∧ (controllerReset s).cycles = s.cycles ∧
    (controllerReset s).fault = s.fault ∧ (controllerReset s).iff1 = false ∧ (controllerReset s).iff2 = false ∧
    (controllerReset s).mode = .mode0 ∧ (controllerReset s).i = 0 ∧ (controllerReset s).eiDelay = 0 ∧
    (controllerReset s).samplePoint = s.samplePoint ∧ (controllerReset s).nmiPending = false ∧
    (controllerReset s).nmiTriggered = false ∧ (controllerReset s).pendingMaskable = [] ∧
    (controllerReset s).mem = s.mem ∧ (controllerReset s).romSize = s.romSize ∧
    (controllerReset s).ramSize = s.ramSize ∧ (controllerReset s).config = s.config := by
  refine ⟨rfl, rfl, rfl, rfl, rfl, rfl, rfl, rfl, rfl, rfl, rfl, rfl, rfl, rfl, rfl, rfl, rfl, rfl, rfl, rfl, rfl, rfl, rfl, rfl, rfl, rfl⟩

@[simp] theorem engineReset_fields (s : State) :
    (engineReset s).a = s.a ∧ (engineReset s).f = s.f ∧ (engineReset s).b = s.b ∧ (engineReset s).c = s.c ∧
    (engineReset s).d = s.d ∧ (engineReset s).e = s.e ∧ (engineReset s).h = s.h ∧ (engineReset s).l = s.l ∧
    (engineReset s).sp = s.config.spReset ∧ (engineReset s).pc = 0 ∧ (engineReset s).halted = false ∧
    (engineReset s).cycles = 0 ∧ (engineReset s).fault = s.fault ∧ (engineReset s).iff1 = false ∧
    (engineReset s).iff2 = false ∧ (engineReset s).mode = .mode0 ∧ (engineReset s).i = 0 ∧
    (engineReset s).eiDelay = 0 ∧ (engineReset s).samplePoint = s.samplePoint ∧
    (engineReset s).nmiPending = false ∧ (engineReset s).nmiTriggered = false ∧
    (engineReset s).pendingMaskable = [] ∧ (engineReset s).mem = s.mem ∧ (engineReset s).romSize = s.romSize ∧
    (engineReset s).ramSize = s.ramSize ∧ (engineReset s).config = s.config := by
  refine ⟨rfl, rfl, rfl, rfl, rfl, rfl, rfl, rfl, rfl, rfl, rfl, rfl, rfl, rfl, rfl, rfl, rfl, rfl, rfl, rfl, rfl, rfl, rfl, rfl, rfl, rfl⟩

@[simp] theorem set8_fields (s : State) (r : Reg8) (v : Byte) :
    (s.set8 r v).f = s.f ∧ (s.set8 r v).sp = s.sp ∧ (s.set8 r v).pc = s.pc ∧ (s.set8 r v).halted = s.halted ∧
    (s.set8 r v).cycles = s.cycles ∧ (s.set8 r v).fault = s.fault ∧ (s.set8 r v).iff1 = s.iff1 ∧
    (s.set8 r v).iff2 = s.iff2 ∧ (s.set8 r v).mode = s.mode ∧ (s.set8 r v).i = s.i ∧
    (s.set8 r v).eiDelay = s.eiDelay ∧ (s.set8 r v).samplePoint = s.samplePoint ∧
    (s.set8 r v).nmiPending = s.nmiPending ∧ (s.set8 r v).nmiTriggered = s.nmiTriggered ∧
    (s.set8 r v).pendingMaskable = s.pendingMaskable ∧ (s.set8 r v).mem = s.mem ∧
    (s.set8 r v).romSize = s.romSize ∧ (s.set8 r v).ramSize = s.ramSize ∧ (s.set8 r v).config = s.config := by
  cases r <;> exact ⟨rfl, rfl, rfl, rfl, rfl, rfl, rfl, rfl, rfl, rfl, rfl, rfl, rfl, rfl, rfl, rfl, rfl, rfl, rfl⟩

@[simp] theorem setDD_fields (s : State) (r : RegDD) (v : Word) :
    (s.setDD r v).a = s.a ∧ (s.setDD r v).f = s.f ∧ (s.setDD r v).pc = s.pc ∧ (s.setDD r v).halted = s.halted ∧
    (s.setDD r v).cycles = s.cycles ∧ (s.setDD r v).fault = s.fault ∧ (s.setDD r v).iff1 = s.iff1 ∧
    (s.setDD r v).iff2 = s.iff2 ∧ (s.setDD r v).mode = s.mode ∧ (s.setDD r v).i = s.i ∧
    (s.setDD r v).eiDelay = s.eiDelay ∧ (s.setDD r v).samplePoint = s.samplePoint ∧
    (s.setDD r v).nmiPending = s.nmiPending ∧ (s.setDD r v).nmiTriggered = s.nmiTriggered ∧
    (s.setDD r v).pendingMaskable = s.pendingMaskable ∧ (s.setDD r v).mem = s.mem ∧
    (s.setDD r v).romSize = s.romSize ∧ (s.setDD r v).ramSize = s.ramSize ∧ (s.setDD r v).config = s.config := by
  cases r <;> exact ⟨rfl, rfl, rfl, rfl, rfl, rfl, rfl, rfl, rfl, rfl, rfl, rfl, rfl, rfl, rfl, rfl, rfl, rfl, rfl⟩

@[simp] theorem setQQ_fields (s : State) (r : RegQQ) (v : Word) :
    (s.setQQ r v).sp = s.sp ∧ (s.setQQ r v).pc = s.pc ∧ (s.setQQ r v).halted = s.halted ∧
    (s.setQQ r v).cycles = s.cycles ∧ (s.setQQ r v).fault = s.fault ∧ (s.setQQ r v).iff1 = s.iff1 ∧
    (s.setQQ r v).iff2 = s.iff2 ∧ (s.setQQ r v).mode = s.mode ∧ (s.setQQ r v).i = s.i ∧
    (s.setQQ r v).eiDelay = s.eiDelay ∧ (s.setQQ r v).samplePoint = s.samplePoint ∧
    (s.setQQ r v).nmiPending = s.nmiPending ∧ (s.setQQ r v).nmiTriggered = s.nmiTriggered ∧
    (s.setQQ r v).pendingMaskable = s.pendingMaskable ∧ (s.setQQ r v).mem = s.mem ∧
    (s.setQQ r v).romSize = s.romSize ∧ (s.setQQ r v).ramSize = s.ramSize ∧ (s.setQQ r v).config = s.config := by
  cases r <;> exact ⟨rfl, rfl, rfl, rfl, rfl, rfl, rfl, rfl, rfl, rfl, rfl, rfl, rfl, rfl, rfl, rfl, rfl, rfl⟩

@[simp] theorem get8_set8_same (s : State) (r : Reg8) (v : Byte) : (s.set8 r v).get8 r = v := by
  cases r <;> rfl

theorem get8_set8_other (s : State) (r q : Reg8) (v : Byte) (h : q ≠ r) : (s.set8 r v).get8 q = s.get8 q := by
  cases r <;> cases q <;> first | rfl | exact absurd rfl h

@[simp] theorem lowerEiDelay_eq (n : Fin 2) : lowerEiDelay n = 0 := by
  match n with
  | 0 => rfl
  | 1 => rfl

end Sys2Proof.Machine
end

