-- ==== Sys2Proof/Laws/Controller.lean ====
section
/-!
SUPPORT. The controller's operations: the delay, the selection of a request, the queue (60_exceptions section 1).
-/

namespace Sys2Proof.Machine

theorem beforeInstruction_eq (s : State) :
    beforeInstruction s = { s with samplePoint := decide (s.eiDelay = 0), eiDelay := 0 } := by
  simp [beforeInstruction]

/-- Selecting takes the NMI, the head of the queue, or nothing, by what `takesNmi` and `takesMaskable` say of the state
`BeforeInstruction` is done in. -/
theorem select_nmi (s : State) (h : s.takesNmi = true) :
    shouldProcessInterrupt (beforeInstruction s) =
      (some nmiRequest,
        { s with samplePoint := decide (s.eiDelay = 0), eiDelay := 0, nmiTriggered := true, nmiPending := false }) := by
  rw [beforeInstruction_eq]
  unfold shouldProcessInterrupt
  exact if_pos h

theorem select_maskable (s : State) (r : InterruptRequest) (h : s.takesMaskable = some r) :
    shouldProcessInterrupt (beforeInstruction s) =
      (some r, { s with samplePoint := true, eiDelay := 0, pendingMaskable := s.pendingMaskable.tail }) := by
  unfold State.takesMaskable at h
  split at h
  · rename_i hc
    simp only [Bool.and_eq_true, Bool.not_eq_true', decide_eq_true_eq] at hc
    obtain ⟨⟨hn, hi⟩, he⟩ := hc
    rw [beforeInstruction_eq]
    unfold shouldProcessInterrupt
    unfold State.takesNmi at hn
    simp only [hn, hi, he, Bool.false_eq_true, if_false, decide_true, Bool.and_self, if_true]
    cases hq : s.pendingMaskable with
    | nil => simp [hq] at h
    | cons x rest =>
      simp only [hq, List.head?_cons, Option.some.injEq] at h
      simp [h]
  · cases h

theorem select_none (s : State) (h : s.quiet) :
    shouldProcessInterrupt (beforeInstruction s) = (none, beforeInstruction s) := by
  obtain ⟨hn, hm⟩ := h
  rw [beforeInstruction_eq]
  unfold shouldProcessInterrupt
  unfold State.takesMaskable at hm
  rw [hn] at hm
  unfold State.takesNmi at hn
  simp only [hn, Bool.false_eq_true, if_false]
  split
  · rename_i hc
    simp only [Bool.not_false, Bool.true_and, hc, if_true] at hm
    simp [List.head?_eq_none_iff.mp hm]
  · rfl

/-- Before a step, an NMI is taken, a maskable request is taken, or nothing is. -/
theorem takes_cases (s : State) : s.takesNmi = true ∨ (∃ r, s.takesMaskable = some r) ∨ s.quiet := by
  cases h : s.takesNmi with
  | true => exact .inl rfl
  | false =>
    cases h2 : s.takesMaskable with
    | none => exact .inr (.inr ⟨h, h2⟩)
    | some r => exact .inr (.inl ⟨r, rfl⟩)

/-- The three exclude each other. -/
theorem takesMaskable_of_takesNmi (s : State) (h : s.takesNmi = true) : s.takesMaskable = none := by
  simp [State.takesMaskable, h]

theorem not_quiet_of_takesMaskable (s : State) (r : InterruptRequest) (h : s.takesMaskable = some r) : ¬ s.quiet := by
  rintro ⟨-, h2⟩
  rw [h] at h2
  cases h2

theorem not_quiet_of_takesNmi (s : State) (h : s.takesNmi = true) : ¬ s.quiet := by
  rintro ⟨h1, -⟩
  rw [h] at h1
  cases h1

/-- A request taken by a step is the head of the queue. -/
theorem takesMaskable_head (s : State) (r : InterruptRequest) (h : s.takesMaskable = some r) :
    s.pendingMaskable = r :: s.pendingMaskable.tail ∧ s.iff1 = true ∧ s.eiDelay = 0 ∧ s.takesNmi = false := by
  unfold State.takesMaskable at h
  split at h
  · rename_i hc
    simp only [Bool.and_eq_true, Bool.not_eq_true', decide_eq_true_eq] at hc
    refine ⟨?_, hc.1.2, hc.2, hc.1.1⟩
    cases hq : s.pendingMaskable with
    | nil => simp [hq] at h
    | cons x rest =>
      simp only [hq, List.head?_cons, Option.some.injEq] at h
      simp [h]
  · cases h

/-- A sorted queue is its entries of lower-or-equal number, then the rest; a request goes between the two (R254). -/
theorem enqueue_sorted (q : List InterruptRequest) (r : InterruptRequest) (h : queueSorted q = true) :
    enqueue q r = q.filter (fun x => decide (x.priority ≤ r.priority)) ++
      r :: q.filter (fun x => decide (r.priority < x.priority)) := by
  unfold enqueue
  have key : ∀ q : List InterruptRequest, queueSorted q = true →
      q.take (q.countP fun x => decide (x.priority ≤ r.priority)) =
        q.filter (fun x => decide (x.priority ≤ r.priority)) ∧
      q.drop (q.countP fun x => decide (x.priority ≤ r.priority)) =
        q.filter (fun x => decide (r.priority < x.priority)) := by
    intro q
    induction q with
    | nil => simp
    | cons x rest ih =>
      intro h
      simp only [queueSorted, Bool.and_eq_true, List.all_eq_true, decide_eq_true_eq] at h
      obtain ⟨hx, hr⟩ := h
      by_cases hle : x.priority ≤ r.priority
      · have := ih hr
        simp [hle, this, not_lt.mpr hle]
      · have hlt : r.priority < x.priority := not_le.mp hle
        have hall : ∀ y ∈ rest, r.priority < y.priority := fun y hy => lt_of_lt_of_le hlt (hx y hy)
        have h0 : rest.countP (fun x => decide (x.priority ≤ r.priority)) = 0 := by
          rw [List.countP_eq_zero]
          intro y hy
          simpa using hall y hy
        have h1 : rest.filter (fun x => decide (x.priority ≤ r.priority)) = [] := by
          rw [List.filter_eq_nil_iff]
          intro y hy
          simpa using hall y hy
        have h2 : rest.filter (fun x => decide (r.priority < x.priority)) = rest := by
          rw [List.filter_eq_self]
          intro y hy
          simpa using hall y hy
        simp [hle, hlt, h0, h1, h2]
  obtain ⟨h1, h2⟩ := key q h
  simp only [h1, h2]

/-- Sortedness of a queue put together from two parts. -/
theorem queueSorted_append (p q : List InterruptRequest) :
    queueSorted (p ++ q) = true ↔
      queueSorted p = true ∧ queueSorted q = true ∧ ∀ x ∈ p, ∀ y ∈ q, x.priority ≤ y.priority := by
  induction p with
  | nil => simp [queueSorted]
  | cons x rest ih =>
    simp only [List.cons_append, queueSorted, Bool.and_eq_true, List.all_eq_true, decide_eq_true_eq, ih,
      List.mem_append, List.mem_cons]
    constructor
    · rintro ⟨h1, h2, h3, h4⟩
      refine ⟨⟨fun y hy => h1 y (.inl hy), h2⟩, h3, ?_⟩
      rintro y (rfl | hy) z hz
      · exact h1 z (.inr hz)
      · exact h4 y hy z hz
    · rintro ⟨⟨h1, h2⟩, h3, h4⟩
      refine ⟨?_, h2, h3, fun y hy => h4 y (.inr hy)⟩
      rintro y (hy | hy)
      · exact h1 y hy
      · exact h4 x (.inl rfl) y hy

theorem queueSorted_filter (f : InterruptRequest → Bool) (q : List InterruptRequest) (h : queueSorted q = true) :
    queueSorted (q.filter f) = true := by
  induction q with
  | nil => rfl
  | cons x rest ih =>
    simp only [queueSorted, Bool.and_eq_true, List.all_eq_true, decide_eq_true_eq] at h
    by_cases hf : f x = true
    · simp only [List.filter_cons, hf, if_true, queueSorted, Bool.and_eq_true, List.all_eq_true, decide_eq_true_eq]
      exact ⟨fun y hy => h.1 y (List.mem_filter.mp hy).1, ih h.2⟩
    · simpa [List.filter_cons, hf] using ih h.2

/-- A maskable request put into a queue that may stand keeps it so (R49, R254). -/
theorem queueWf_enqueue (q : List InterruptRequest) (r : InterruptRequest) (h : queueWf q = true)
    (hr : r.type = .maskable) : queueWf (enqueue q r) = true := by
  simp only [queueWf, queueMaskable, Bool.and_eq_true, List.all_eq_true, decide_eq_true_eq] at h ⊢
  obtain ⟨hm, hs⟩ := h
  rw [enqueue_sorted q r hs]
  constructor
  · intro x hx
    rcases List.mem_append.mp hx with hx | hx
    · exact hm x (List.mem_filter.mp hx).1
    · rcases List.mem_cons.mp hx with rfl | hx
      · exact hr
      · exact hm x (List.mem_filter.mp hx).1
  · have hle : ∀ x ∈ q.filter (fun x => decide (x.priority ≤ r.priority)), x.priority ≤ r.priority := by
      intro x hx
      simpa using (List.mem_filter.mp hx).2
    have hlt : ∀ x ∈ q.filter (fun x => decide (r.priority < x.priority)), r.priority < x.priority := by
      intro x hx
      simpa using (List.mem_filter.mp hx).2
    rw [queueSorted_append]
    refine ⟨queueSorted_filter _ _ hs, ?_, ?_⟩
    · simp only [queueSorted, Bool.and_eq_true, List.all_eq_true, decide_eq_true_eq]
      exact ⟨fun y hy => le_of_lt (hlt y hy), queueSorted_filter _ _ hs⟩
    · intro x hx y hy
      rcases List.mem_cons.mp hy with rfl | hy
      · exact hle x hx
      · exact le_trans (hle x hx) (le_of_lt (hlt y hy))

/-- What is left of a queue after its head is taken may stand too. -/
theorem queueWf_tail (q : List InterruptRequest) (h : queueWf q = true) : queueWf q.tail = true := by
  cases q with
  | nil => exact h
  | cons x rest =>
    simp only [queueWf, queueMaskable, queueSorted, List.all_cons, Bool.and_eq_true, decide_eq_true_eq, List.tail_cons] at h ⊢
    exact ⟨h.1.2, h.2.2⟩

end Sys2Proof.Machine
end

