-- ==== Sys2Proof/Laws/Decode.lean ====
section
/-!
SUPPORT. What the decoder's tables say of the encoder, and what fetching does (30_encoding R92, 40_engine_step R120).
-/

namespace Sys2Proof

/-- A three-byte entry decodes with its operand word low byte first. -/
theorem decode_nn {op : Byte} {f : Word → Instr} (h : decodeMain op = some (.opNN f)) (hop : op ≠ 0xED) (nn : Word)
    (rest : List Byte) : decode ([op, Machine.loByte nn, Machine.hiByte nn] ++ rest) = .ok (f nn) rest := by
  simp only [List.cons_append, List.nil_append, decode, if_neg hop, h, Machine.wordOf_hiByte_loByte]

/-- What a main-page entry says of the bytes its instructions are encoded by. -/
def MainEntry.agrees (op : Byte) (entry : MainEntry) : Prop :=
  match entry with
  | .op i => encode i = [op]
  | .opN f => ∀ n, encode (f n) = [op, n]
  | .opE f => ∀ e, encode (f e) = [op, e]
  | .opNN f => ∀ nn, encode (f nn) = [op, Machine.loByte nn, Machine.hiByte nn]

/-- Every main-page entry agrees with the opcode map: 256 first bytes, one by one. -/
theorem decodeMain_agrees (op : Byte) : (decodeMain op).elim True (MainEntry.agrees op) := by
  obtain ⟨k, hk, rfl⟩ : ∃ k, k < 256 ∧ op = BitVec.ofNat 8 k := ⟨op.toNat, op.isLt, by simp⟩
  interval_cases k <;> first | exact True.intro | exact (rfl : encode _ = _) | exact fun _ => rfl

/-- Every ED-page entry agrees with the opcode map: 256 second bytes, one by one. -/
theorem decodeEd_agrees (op2 : Byte) : (decodeEd op2).elim True fun i => encode i = [0xED, op2] := by
  obtain ⟨k, hk, rfl⟩ : ∃ k, k < 256 ∧ op2 = BitVec.ofNat 8 k := ⟨op2.toNat, op2.isLt, by simp⟩
  interval_cases k <;> first | exact True.intro | exact (rfl : encode _ = _)

theorem decodeMain_sound {op : Byte} {entry : MainEntry} (h : decodeMain op = some entry) : entry.agrees op := by
  have := decodeMain_agrees op
  rwa [h] at this

theorem decodeEd_sound {op2 : Byte} {i : Instr} (h : decodeEd op2 = some i) : encode i = [0xED, op2] := by
  have := decodeEd_agrees op2
  rwa [h] at this

/-- The prefix is no main-page entry. -/
theorem decodeMain_prefix : decodeMain 0xED = none := rfl

namespace Machine

@[simp] theorem readByte_setPC (s : State) (v x : Word) : (s.setPC v).readByte x = s.readByte x := rfl

@[simp] theorem setPC_setPC (s : State) (v w : Word) : (s.setPC v).setPC w = s.setPC w := rfl

/-- Fetching is decoding the three bytes at PC, with PC past the bytes of the instruction they begin with. -/
theorem fetchDecode_eq (s : State) :
    (∀ i rest, decode s.bytesAtPC = .ok i rest →
      fetchDecode s = .ok (i, s.setPC (s.pc + BitVec.ofNat 16 i.length))) ∧
    (∀ op, decode s.bytesAtPC = .unimplementedMain op → fetchDecode s = .error (.unimplementedOpcode s.pc op none)) ∧
    (∀ op2, decode s.bytesAtPC = .unimplementedEd op2 →
      fetchDecode s = .error (.unimplementedOpcode s.pc 0xED (some op2))) ∧
    decode s.bytesAtPC ≠ .truncated := by
  have hf : fetchDecode s =
      if s.readByte s.pc = 0xED then
        match decodeEd (s.readByte (s.pc + 1)) with
        | some i => .ok (i, s.setPC (s.pc + 1 + 1))
        | none => .error (.unimplementedOpcode s.pc (s.readByte s.pc) (some (s.readByte (s.pc + 1))))
      else
        match decodeMain (s.readByte s.pc) with
        | none => .error (.unimplementedOpcode s.pc (s.readByte s.pc) none)
        | some (.op i) => .ok (i, s.setPC (s.pc + 1))
        | some (.opN f) => .ok (f (s.readByte (s.pc + 1)), s.setPC (s.pc + 1 + 1))
        | some (.opE f) => .ok (f (s.readByte (s.pc + 1)), s.setPC (s.pc + 1 + 1))
        | some (.opNN f) =>
          .ok (f (wordOf (s.readByte (s.pc + 1 + 1)) (s.readByte (s.pc + 1))), s.setPC (s.pc + 1 + 1 + 1)) := rfl
  rw [hf, State.bytesAtPC]
  simp only [add_one_add_one, show s.pc + 2 + 1 = s.pc + 3 by bv_omega]
  generalize s.readByte s.pc = b0
  generalize s.readByte (s.pc + 1) = b1
  generalize s.readByte (s.pc + 2) = b2
  by_cases hed : b0 = 0xED
  · subst hed
    cases hd : decodeEd b1 with
    | none => simp [decode, hd]
    | some i =>
      have hl := decodeEd_sound hd
      simp only [decode, hd, if_true, DecodeResult.ok.injEq, reduceCtorEq, false_imp_iff, implies_true, ne_eq,
        not_false_eq_true, and_self, and_true]
      rintro j rest ⟨rfl, -⟩
      simp [Instr.length, hl]
  · simp only [decode, if_neg hed]
    cases hd : decodeMain b0 with
    | none => simp
    | some entry =>
      have hl := decodeMain_sound hd
      cases entry <;> simp only [MainEntry.agrees] at hl <;>
        simp only [DecodeResult.ok.injEq, reduceCtorEq, false_imp_iff, implies_true, ne_eq, not_false_eq_true,
          and_self, and_true] <;>
        (rintro j rest ⟨rfl, -⟩; simp [Instr.length, hl])

end Machine

end Sys2Proof
end

