-- ==== Sys2Proof/Laws/Flags.lean ====
section
/-!
SUPPORT. The bits of F after a flag write (10_state R25, R27).
-/

namespace Sys2Proof.Machine

theorem writeZ_bits (f : Byte) (z : Bool) : flagsWritten f (writeZ f z) z (flagC f) := by
  refine ⟨?_, ?_, fun k h6 h0 => ?_⟩
  · cases z <;> simp [writeZ]
  · cases z <;> simp [writeZ, flagC]
  · by_cases hk : k < 8
    · cases z <;> interval_cases k <;> simp_all [writeZ]
    · simp [BitVec.getLsbD_of_ge _ _ (by omega : 8 ≤ k)]

theorem writeC_bits (f : Byte) (c : Bool) : flagsWritten f (writeC f c) (flagZ f) c := by
  refine ⟨?_, ?_, fun k h6 h0 => ?_⟩
  · cases c <;> simp [writeC, flagZ]
  · cases c <;> simp [writeC]
  · by_cases hk : k < 8
    · cases c <;> interval_cases k <;> simp_all [writeC]
    · simp [BitVec.getLsbD_of_ge _ _ (by omega : 8 ≤ k)]

theorem writeZC_bits (f : Byte) (z c : Bool) : flagsWritten f (writeZC f z c) z c := by
  obtain ⟨hz, -, ho⟩ := writeZ_bits f z
  obtain ⟨gz, gc, go⟩ := writeC_bits (writeZ f z) c
  exact ⟨by rw [writeZC, gz]; exact hz, gc, fun k h6 h0 => by rw [writeZC, go k h6 h0, ho k h6 h0]⟩

/-- The zero test of a sum is the test of the exact sum modulo the width. -/
theorem addWith_zero (w : Nat) (x y : BitVec w) (c : Bool) :
    (addWith w x y c).zero = decide ((x.toNat + y.toNat + bit c) % 2 ^ w = 0) := by
  simp [addWith, ← BitVec.toNat_inj, beq_eq_decide]

/-- The result of a difference, as a number, is the exact difference modulo the width. -/
theorem subWith_res (w : Nat) (x y : BitVec w) (c : Bool) :
    ((subWith w x y c).res.toNat : Int) = ((x.toNat : Int) - (y.toNat : Int) - (bit c : Int)) % (2 ^ w : Nat) := by
  simp only [subWith, BitVec.toNat_ofInt]
  exact Int.toNat_of_nonneg (Int.emod_nonneg _ (by positivity))

/-- The zero test of a difference is the test of the exact difference modulo the width. -/
theorem subWith_zero (w : Nat) (x y : BitVec w) (c : Bool) :
    (subWith w x y c).zero =
      decide (((x.toNat : Int) - (y.toNat : Int) - (bit c : Int)) % (2 ^ w : Nat) = 0) := by
  rw [← subWith_res]
  simp [subWith, ← BitVec.toNat_inj, beq_eq_decide]

end Sys2Proof.Machine
end

