-- ==== Sys2Proof/Laws/Memory.lean ====
section
/-!
SUPPORT. The byte store: read after write, and the canonical form kept by every operation (20_memory R61, R62, R72).
-/

namespace Sys2Proof.Machine

@[simp] theorem Memory.read_erase_same (m : Memory) (x : Nat) : (m.erase x).read x = Memory.unlisted := by
  induction m with
  | nil => rfl
  | cons cell rest ih =>
    by_cases h : cell.1 = x
    · simpa [Memory.erase, h] using ih
    · simpa [Memory.erase, h, Memory.read] using ih

theorem Memory.read_erase_other (m : Memory) (x y : Nat) (h : y ≠ x) : (m.erase x).read y = m.read y := by
  induction m with
  | nil => rfl
  | cons cell rest ih =>
    by_cases hx : cell.1 = x
    · have hy : cell.1 ≠ y := fun e => h (e.symm.trans hx)
      have hxy : ¬ x = y := fun e => h e.symm
      simpa [Memory.erase, hx, Memory.read, hy, hxy] using ih
    · by_cases hy : cell.1 = y
      · simp [Memory.erase, Memory.read, hy, h]
      · simpa [Memory.erase, hx, Memory.read, hy] using ih

theorem Memory.read_insert_same (m : Memory) (x : Nat) (v : Byte) (h : ∀ cell ∈ m, cell.1 ≠ x) :
    (m.insert x v).read x = v := by
  induction m with
  | nil => simp [Memory.insert, Memory.read]
  | cons cell rest ih =>
    have h1 : cell.1 ≠ x := h cell (by simp)
    have h2 := ih fun k hk => h k (by simp [hk])
    by_cases hlt : cell.1 < x
    · simp [Memory.insert, hlt, Memory.read, h1, h2]
    · simp [Memory.insert, hlt, Memory.read]

theorem Memory.read_insert_other (m : Memory) (x y : Nat) (v : Byte) (h : y ≠ x) :
    (m.insert x v).read y = m.read y := by
  have hxy : ¬ x = y := fun e => h e.symm
  induction m with
  | nil => simp [Memory.insert, Memory.read, hxy]
  | cons cell rest ih =>
    by_cases hlt : cell.1 < x
    · simp [Memory.insert, hlt, Memory.read, ih]
    · simp [Memory.insert, hlt, Memory.read, hxy]

theorem Memory.erase_addresses (m : Memory) (x : Nat) : ∀ cell ∈ m.erase x, cell.1 ≠ x := by
  intro cell hc
  simpa using (List.mem_filter.mp hc).2

@[simp] theorem Memory.read_write_same (m : Memory) (x : Nat) (v : Byte) : (m.write x v).read x = v := by
  by_cases h : v = Memory.unlisted
  · simp [Memory.write, h]
  · simp [Memory.write, h, Memory.read_insert_same _ _ _ (Memory.erase_addresses m x)]

theorem Memory.read_write_other (m : Memory) (x y : Nat) (v : Byte) (h : y ≠ x) :
    (m.write x v).read y = m.read y := by
  by_cases hv : v = Memory.unlisted
  · simp [Memory.write, hv, Memory.read_erase_other _ _ _ h]
  · simp [Memory.write, hv, Memory.read_insert_other _ _ _ _ h, Memory.read_erase_other _ _ _ h]

/-- The canonical form of a memory with a first cell. -/
theorem Memory.wf_cons (cell : Host.Cell) (m : Memory) :
    Memory.wf (cell :: m) = true ↔
      cell.1 < 65536 ∧ cell.2 ≠ Memory.unlisted ∧ (∀ k ∈ m, cell.1 < k.1) ∧ m.wf = true := by
  simp [Memory.wf, and_assoc]

theorem Memory.wf_erase (m : Memory) (x : Nat) (h : m.wf = true) : (m.erase x).wf = true := by
  induction m with
  | nil => rfl
  | cons cell rest ih =>
    obtain ⟨h1, h2, h3, h4⟩ := (Memory.wf_cons _ _).mp h
    by_cases hx : cell.1 = x
    · simpa [Memory.erase, hx] using ih h4
    · have he : Memory.erase (cell :: rest) x = cell :: Memory.erase rest x := by simp [Memory.erase, hx]
      rw [he]
      exact (Memory.wf_cons _ _).mpr ⟨h1, h2, fun k hk => h3 k (List.mem_filter.mp hk).1, ih h4⟩

theorem Memory.mem_insert (m : Memory) (x : Nat) (v : Byte) : ∀ k ∈ m.insert x v, k = (x, v) ∨ k ∈ m := by
  induction m with
  | nil => simp [Memory.insert]
  | cons cell rest ih =>
    intro k hk
    by_cases hlt : cell.1 < x
    · simp only [Memory.insert, hlt, if_true, List.mem_cons] at hk ⊢
      rcases hk with hk | hk
      · exact .inr (.inl hk)
      · exact (ih k hk).imp_right .inr
    · simpa [Memory.insert, hlt] using hk

theorem Memory.wf_insert (m : Memory) (x : Nat) (v : Byte) (h : m.wf = true) (hx : x < 65536)
    (hv : v ≠ Memory.unlisted) (hm : ∀ k ∈ m, k.1 ≠ x) : (m.insert x v).wf = true := by
  induction m with
  | nil => exact (Memory.wf_cons _ _).mpr ⟨hx, hv, by simp, rfl⟩
  | cons cell rest ih =>
    obtain ⟨h1, h2, h3, h4⟩ := (Memory.wf_cons _ _).mp h
    by_cases hlt : cell.1 < x
    · simp only [Memory.insert, hlt, if_true]
      refine (Memory.wf_cons _ _).mpr ⟨h1, h2, ?_, ih h4 fun k hk => hm k (by simp [hk])⟩
      intro k hk
      rcases Memory.mem_insert _ _ _ k hk with rfl | hk
      · exact hlt
      · exact h3 k hk
    · simp only [Memory.insert, hlt, if_false]
      have hne : cell.1 ≠ x := hm cell (by simp)
      refine (Memory.wf_cons _ _).mpr ⟨hx, hv, ?_, h⟩
      intro k hk
      rcases List.mem_cons.mp hk with rfl | hk
      · omega
      · have := h3 k hk
        omega

/-- A write keeps the canonical form. -/
theorem Memory.wf_write (m : Memory) (x : Nat) (v : Byte) (h : m.wf = true) (hx : x < 65536) :
    (m.write x v).wf = true := by
  by_cases hv : v = Memory.unlisted
  · simpa [Memory.write, hv] using Memory.wf_erase m x h
  · simpa [Memory.write, hv] using
      Memory.wf_insert _ x v (Memory.wf_erase m x h) hx hv (Memory.erase_addresses m x)

theorem Memory.ofImage_addresses (bytes : List Byte) (x : Nat) : ∀ k ∈ Memory.ofImage x bytes, x ≤ k.1 := by
  induction bytes generalizing x with
  | nil => simp [Memory.ofImage]
  | cons v rest ih =>
    intro k hk
    by_cases hv : v = Memory.unlisted
    · simp only [Memory.ofImage, hv, if_true] at hk
      have := ih (x + 1) k hk
      omega
    · simp only [Memory.ofImage, hv, if_false, List.mem_cons] at hk
      rcases hk with rfl | hk
      · exact le_refl _
      · have := ih (x + 1) k hk
        omega

/-- A loaded image is in canonical form when it fits the address space. -/
theorem Memory.wf_ofImage (bytes : List Byte) (x : Nat) (h : x + bytes.length ≤ 65536) :
    (Memory.ofImage x bytes).wf = true := by
  induction bytes generalizing x with
  | nil => rfl
  | cons v rest ih =>
    have hr : (Memory.ofImage (x + 1) rest).wf = true := ih (x + 1) (by simp at h; omega)
    by_cases hv : v = Memory.unlisted
    · simpa [Memory.ofImage, hv] using hr
    · simp only [Memory.ofImage, hv, if_false]
      refine (Memory.wf_cons _ _).mpr ⟨by simp at h; omega, hv, ?_, hr⟩
      intro k hk
      have := Memory.ofImage_addresses rest (x + 1) k hk
      show x < k.1
      omega

/-- After `LoadRom`, `mem[a]` is the image's byte below its length and zero elsewhere (R61). -/
theorem Memory.read_ofImage (bytes : List Byte) (x y : Nat) :
    (Memory.ofImage x bytes).read y = if x ≤ y then bytes.getD (y - x) Memory.unlisted else Memory.unlisted := by
  induction bytes generalizing x with
  | nil => simp [Memory.ofImage, Memory.read]
  | cons v rest ih =>
    have key : (Memory.ofImage x (v :: rest)).read y =
        if x = y then v else (Memory.ofImage (x + 1) rest).read y := by
      by_cases hv : v = Memory.unlisted
      · by_cases hxy : x = y
        · simp [Memory.ofImage, hv, ih, hxy]
        · simp [Memory.ofImage, hv, hxy]
      · simp [Memory.ofImage, hv, Memory.read]
    rw [key, ih]
    by_cases hxy : x = y
    · simp [hxy]
    · by_cases hle : x ≤ y
      · have e : y - x = (y - (x + 1)) + 1 := by omega
        simp [hxy, hle, show x + 1 ≤ y by omega, e]
      · simp [hxy, hle, show ¬ x + 1 ≤ y by omega]

/-- Placing bytes at a fetch address keeps the canonical form. -/
theorem Memory.wf_place (bytes : List Byte) (m : Memory) (x : Word) (h : m.wf = true) :
    (Memory.place m x bytes).wf = true := by
  induction bytes generalizing m x with
  | nil => exact h
  | cons v rest ih => exact ih _ _ (Memory.wf_write m _ v h x.isLt)

end Sys2Proof.Machine
end

