-- ==== Sys2Proof/Laws/Ops.lean ====
section
/-!
SUPPORT. What each shared operation can do, said once: byte writes, the stack, taking an interrupt, returning from one.
-/

namespace Sys2Proof.Machine

theorem Config.inRam_iff (p : Config) (x : Word) :
    p.inRam x = true ↔ p.ramLo.toNat ≤ x.toNat ∧ x.toNat ≤ p.ramHi.toNat := by
  simp [Config.inRam]

/-- A byte write changes memory alone. -/
theorem writeByte_eq (s : State) (x : Word) (v : Byte) : s.writeByte x v = s.setMem (s.writeByte x v).mem := by
  unfold State.writeByte
  split <;> rfl

theorem writeByte_mem (s : State) (x : Word) (v : Byte) :
    (s.writeByte x v).mem = if s.config.inRam x = true then s.mem.write x.toNat v else s.mem := by
  unfold State.writeByte
  split <;> rfl

theorem readByte_writeByte (s : State) (x y : Word) (v : Byte) :
    (s.writeByte x v).readByte y = if y = x ∧ s.config.inRam x = true then v else s.readByte y := by
  by_cases hr : s.config.inRam x = true
  · by_cases hy : y = x
    · simp [State.writeByte, hr, hy, State.readByte]
    · have hne : y.toNat ≠ x.toNat := fun e => hy (BitVec.eq_of_toNat_eq e)
      simp [State.writeByte, hr, hy, State.readByte, Memory.read_write_other _ _ _ _ hne]
  · simp [State.writeByte, hr]

theorem writeByte_wf (s : State) (x : Word) (v : Byte) (h : s.mem.wf = true) : (s.writeByte x v).mem.wf = true := by
  unfold State.writeByte
  split
  · exact Memory.wf_write _ _ _ h x.isLt
  · exact h

/-- `Push16` lowers SP by two and changes memory; nothing else. -/
theorem push16_eq (s : State) (v : Word) : s.push16 v = (s.setSP (s.sp - 2)).setMem (s.push16 v).mem := by
  have h : (s.push16 v).sp = s.sp - 2 := by
    unfold State.push16 State.pushByte
    rw [writeByte_eq]
    simp only [setMem_fields, setSP_fields]
    rw [writeByte_eq]
    simp only [setMem_fields, setSP_fields, sub_one_sub_one]
  have h2 : s.push16 v = { s with sp := (s.push16 v).sp, mem := (s.push16 v).mem } := by
    unfold State.push16 State.pushByte
    rw [writeByte_eq, writeByte_eq]
    rfl
  rw [h] at h2
  exact h2

/-- The memory `Push16` leaves, from SP, the memory and the RAM window alone. -/
theorem push16_mem (s : State) (v : Word) :
    (s.push16 v).mem =
      let m := if s.config.inRam (s.sp - 1) = true then s.mem.write (s.sp - 1).toNat (hiByte v) else s.mem
      if s.config.inRam (s.sp - 2) = true then m.write (s.sp - 2).toNat (loByte v) else m := by
  have hw := writeByte_eq (s.setSP (s.sp - 1)) (s.sp - 1) (hiByte v)
  have hp : s.pushByte (hiByte v) = (s.setSP (s.sp - 1)).writeByte (s.sp - 1) (hiByte v) := rfl
  have h2 : (s.push16 v).mem = (((s.pushByte (hiByte v)).setSP ((s.pushByte (hiByte v)).sp - 1)).writeByte
      ((s.pushByte (hiByte v)).sp - 1) (loByte v)).mem := rfl
  rw [h2, writeByte_mem, hp, hw]
  simp only [setMem_fields, setSP_fields, sub_one_sub_one, writeByte_mem]

/-- The bytes of memory after `Push16` (R216, R63). -/
theorem push16_pushed (s : State) (v : Word) : s.pushed (s.push16 v) v := by
  have key : ∀ x, (s.push16 v).readByte x =
      if x = s.sp - 2 ∧ s.config.inRam (s.sp - 2) = true then loByte v
      else if x = s.sp - 1 ∧ s.config.inRam (s.sp - 1) = true then hiByte v else s.readByte x := by
    intro x
    have hw := writeByte_eq (s.setSP (s.sp - 1)) (s.sp - 1) (hiByte v)
    have hsp : (s.pushByte (hiByte v)).sp = s.sp - 1 := by
      show ((s.setSP (s.sp - 1)).writeByte (s.sp - 1) (hiByte v)).sp = s.sp - 1
      rw [hw]; rfl
    have hcf : (s.pushByte (hiByte v)).config = s.config := by
      show ((s.setSP (s.sp - 1)).writeByte (s.sp - 1) (hiByte v)).config = s.config
      rw [hw]; rfl
    have h1 : ∀ y, (s.pushByte (hiByte v)).readByte y =
        if y = s.sp - 1 ∧ s.config.inRam (s.sp - 1) = true then hiByte v else s.readByte y :=
      fun y => readByte_writeByte (s.setSP (s.sp - 1)) (s.sp - 1) y (hiByte v)
    have h2 := readByte_writeByte ((s.pushByte (hiByte v)).setSP ((s.pushByte (hiByte v)).sp - 1))
      ((s.pushByte (hiByte v)).sp - 1) x (loByte v)
    rw [hsp, sub_one_sub_one] at h2
    have h3 : (s.push16 v).readByte x = (((s.pushByte (hiByte v)).setSP ((s.pushByte (hiByte v)).sp - 1)).writeByte
        ((s.pushByte (hiByte v)).sp - 1) (loByte v)).readByte x := rfl
    rw [hsp, sub_one_sub_one] at h3
    rw [h3, h2]
    have h4 : ((s.pushByte (hiByte v)).setSP (s.sp - 2)).readByte x = (s.pushByte (hiByte v)).readByte x := rfl
    have h5 : ((s.pushByte (hiByte v)).setSP (s.sp - 2)).config = s.config := hcf
    rw [h4, h5, h1]
  refine ⟨?_, ?_, ?_⟩
  · rw [key, if_neg (fun e => sub_one_ne_sub_two _ e.1)]
    exact if_congr (and_iff_right rfl) rfl rfl
  · rw [key]
    by_cases hr : s.config.inRam (s.sp - 2) = true
    · rw [if_pos ⟨rfl, hr⟩, if_pos hr]
    · rw [if_neg (fun e => hr e.2), if_neg (fun e => sub_one_ne_sub_two _ e.1.symm), if_neg hr]
  · intro x h1 h2
    rw [key, if_neg (fun e => h2 e.1), if_neg (fun e => h1 e.1)]

theorem push16_wf (s : State) (v : Word) (h : s.mem.wf = true) : (s.push16 v).mem.wf = true :=
  writeByte_wf _ _ _ (writeByte_wf _ _ _ h)

/-- `Pop16` reads the two bytes at SP and raises SP by two; nothing else (R217). -/
theorem pop16_eq (s : State) : s.pop16 = (wordOf (s.readByte (s.sp + 1)) (s.readByte s.sp), s.setSP (s.sp + 2)) := by
  show (wordOf (s.readByte (s.sp + 1)) (s.readByte s.sp), (s.setSP (s.sp + 1)).setSP (s.sp + 1 + 1)) = _
  rw [add_one_add_one]
  rfl

/-- The stack half of a return (R231, R232). -/
theorem popPC_eq (s : State) :
    popPC s = (s.setSP (s.sp + 2)).setPC (wordOf (s.readByte (s.sp + 1)) (s.readByte s.sp)) := by
  unfold popPC
  rw [pop16_eq]

/-- The PC an interrupt entry goes to, from the request, the mode before the entry and the state after the push (R264). -/
def entryPC (r : InterruptRequest) (s pushedState : State) : Word :=
  match r.type with
  | .nonMaskable => 0x0066
  | .maskable =>
    match s.mode with
    | .mode0 => mode0Entry r.vector
    | .mode1 => 0x0038
    | .mode2 => mode2Entry (s.i ++ r.vector) pushedState

/-- The cost of an interrupt entry (R264). -/
def entryCost (r : InterruptRequest) (s : State) : Nat :=
  match r.type with
  | .nonMaskable => s.config.cyc.intNmi
  | .maskable =>
    match s.mode with
    | .mode0 => s.config.cyc.intIm0
    | .mode1 => s.config.cyc.intIm1
    | .mode2 => s.config.cyc.intIm2

/-- Everything an interrupt entry does (R264). -/
theorem handleInterrupt_eq (r : InterruptRequest) (s : State) :
    handleInterrupt r s =
      { s with
        pc := entryPC r s (s.push16 s.pc)
        sp := s.sp - 2
        mem := (s.push16 s.pc).mem
        halted := false
        iff2 := s.iff1
        iff1 := false
        nmiTriggered := if r.type = .nonMaskable then false else s.nmiTriggered
        cycles := s.cycles + BitVec.ofNat 64 (entryCost r s) } := by
  have base : ∀ (u : State), u.sp = s.sp → u.mem = s.mem → u.config = s.config →
      u.push16 s.pc = { u with sp := s.sp - 2, mem := (s.push16 s.pc).mem } := by
    intro u h1 h2 h3
    have hm : (u.push16 s.pc).mem = (s.push16 s.pc).mem := by rw [push16_mem, push16_mem, h1, h2, h3]
    rw [push16_eq, hm, h1]
    rfl
  have hi : ∀ u : State, u.mem = (s.push16 s.pc).mem → u.config = s.config → ∀ x,
      mode2Entry x u = mode2Entry x (s.push16 s.pc) := by
    intro u h1 h2 x
    rw [push16_eq s s.pc]
    simp only [mode2Entry, State.readWord, State.readByte, h1, h2, setMem_fields, setSP_fields]
  obtain ⟨type, vector, priority, source⟩ := r
  cases type with
  | nonMaskable =>
    have hp : processInterrupt ⟨.nonMaskable, vector, priority, source⟩ s =
      ((0x00, 0x0066), { s with iff2 := s.iff1, iff1 := false, nmiTriggered := false }) := rfl
    have b := base { s with iff2 := s.iff1, iff1 := false, nmiTriggered := false } rfl rfl rfl
    simp only [handleInterrupt, hp]
    exact Eq.trans (congrArg (fun u : State => ((u.setPC 0x0066).setHalted false).addCycles u.config.cyc.intNmi) b) rfl
  | maskable =>
    have b := base { s with iff2 := s.iff1, iff1 := false } rfl rfl rfl
    cases hm : s.mode with
    | mode0 =>
      have hp : processInterrupt ⟨.maskable, vector, priority, source⟩ s =
        ((vector, 0x0000), { s with iff2 := s.iff1, iff1 := false }) := by simp only [processInterrupt, hm]
      simp only [handleInterrupt, hp, hm, entryPC, entryCost] at b ⊢
      exact Eq.trans (congrArg (fun u : State => ((u.setPC (mode0Entry vector)).setHalted false).addCycles
        u.config.cyc.intIm0) b) rfl
    | mode1 =>
      have hp : processInterrupt ⟨.maskable, vector, priority, source⟩ s =
        ((0x00, 0x0038), { s with iff2 := s.iff1, iff1 := false }) := by simp only [processInterrupt, hm]
      simp only [handleInterrupt, hp, hm, entryPC, entryCost] at b ⊢
      exact Eq.trans (congrArg (fun u : State => ((u.setPC 0x0038).setHalted false).addCycles
        u.config.cyc.intIm1) b) rfl
    | mode2 =>
      have hp : processInterrupt ⟨.maskable, vector, priority, source⟩ s =
        ((0x00, s.i ++ vector), { s with iff2 := s.iff1, iff1 := false }) := by simp only [processInterrupt, hm]
      simp only [handleInterrupt, hp, hm, entryPC, entryCost] at b ⊢
      have hc := congrArg State.config b
      have hmem := congrArg State.mem b
      have ht := hi _ hmem hc (s.i ++ vector)
      rw [ht]
      exact Eq.trans (congrArg (fun u : State => ((u.setPC (mode2Entry (s.i ++ vector) (s.push16 s.pc))).setHalted
        false).addCycles u.config.cyc.intIm2) b) rfl

end Sys2Proof.Machine
end

