-- ==== Sys2Proof/Laws/Exec.lean ====
section
/-!
SUPPORT. The meaning of each form of instruction, for all its registers at once, as one update of the state; the family
files write the same form by form.
-/

namespace Sys2Proof.Machine

@[simp] theorem exec_ldRR (r r2 : Reg8) (s : State) : exec (.ldRR r r2) s = loadReg r r2 s := by
  cases r <;> cases r2 <;> rfl

@[simp] theorem exec_ldRN (r : Reg8) (n : Byte) (s : State) : exec (.ldRN r n) s = loadImm8 r n s := by
  cases r <;> rfl

@[simp] theorem exec_ldDDNN (dd : RegDD) (nn : Word) (s : State) : exec (.ldDDNN dd nn) s = loadImm16 dd nn s := by
  cases dd <;> rfl

@[simp] theorem exec_aluR (op : AluOp) (r : Reg8) (s : State) : exec (.aluR op r) s = aluReg op r s := by
  cases op <;> cases r <;> rfl

@[simp] theorem exec_aluN (op : AluOp) (n : Byte) (s : State) : exec (.aluN op n) s = aluImm op n s := by
  cases op <;> rfl

@[simp] theorem exec_addHLSS (ss : RegDD) (s : State) : exec (.addHLSS ss) s = addHL ss s := by
  cases ss <;> rfl

@[simp] theorem exec_adcHLSS (ss : RegDD) (s : State) : exec (.adcHLSS ss) s = adcHL ss s := by
  cases ss <;> rfl

@[simp] theorem exec_sbcHLSS (ss : RegDD) (s : State) : exec (.sbcHLSS ss) s = sbcHL ss s := by
  cases ss <;> rfl

@[simp] theorem exec_incR (r : Reg8) (s : State) : exec (.incR r) s = incReg r s := by
  cases r <;> rfl

@[simp] theorem exec_decR (r : Reg8) (s : State) : exec (.decR r) s = decReg r s := by
  cases r <;> rfl

@[simp] theorem exec_incSS (ss : RegDD) (s : State) : exec (.incSS ss) s = incPair ss s := by
  cases ss <;> rfl

@[simp] theorem exec_decSS (ss : RegDD) (s : State) : exec (.decSS ss) s = decPair ss s := by
  cases ss <;> rfl

@[simp] theorem exec_jpCC (cc : Cond) (nn : Word) (s : State) : exec (.jpCC cc nn) s = jumpAbsIf cc nn s := by
  cases cc <;> rfl

@[simp] theorem exec_jrCC (cc : Cond) (e : Byte) (s : State) : exec (.jrCC cc e) s = jumpRelIf cc e s := by
  cases cc <;> rfl

@[simp] theorem exec_push (qq : RegQQ) (s : State) : exec (.push qq) s = pushPair qq s := by
  cases qq <;> rfl

@[simp] theorem exec_pop (qq : RegQQ) (s : State) : exec (.pop qq) s = popPair qq s := by
  cases qq <;> rfl

@[simp] theorem exec_rst (p : RstTarget) (s : State) : exec (.rst p) s = restart p s := by
  cases p <;> rfl

end Sys2Proof.Machine
end

