-- ==== Sys2Proof/Laws/HostPort.lean ====
section
/-!
SUPPORT. What the moves of the host over memory can do, said once.
-/

namespace Sys2Proof.Machine

/-- A range written through the inspection surface changes memory alone. -/
theorem inspectWriteRange_eq (x : Word) (bytes : List Byte) (s : State) :
    inspectWriteRange x bytes s = s.setMem (inspectWriteRange x bytes s).mem := by
  induction bytes generalizing x s with
  | nil => rfl
  | cons v rest ih =>
    have h := ih (x + 1) (s.writeByte x v)
    rw [writeByte_eq] at h
    simp only [inspectWriteRange]
    rw [writeByte_eq]
    exact h

/-- `LoadRom`, where it has a meaning, changes memory and the ROM size alone. -/
theorem loadRom_eq (bytes : List Byte) (s t : State) (h : loadRom bytes s = some t) :
    bytes.length ≤ 65536 ∧ t = { s with mem := Memory.ofImage 0 bytes, romSize := bytes.length } := by
  unfold loadRom at h
  split at h
  · exact ⟨‹_›, (Option.some.inj h).symm⟩
  · cases h

end Sys2Proof.Machine
end

