-- ==== Sys2Proof/Laws/Step.lean ====
section
/-!
SUPPORT. What a step does, phase by phase, and the one inversion lemma that invariants of the step go through.
-/

namespace Sys2Proof.Machine

theorem step_latched (s : State) (r : Fault) (h : s.fault = some r) : step s = .fault r := by
  simp [step, stepWith, h]

theorem step_nmi (s : State) (hf : s.fault = none) (h : s.takesNmi = true) :
    step s = .next (handleInterrupt nmiRequest
      { s with samplePoint := decide (s.eiDelay = 0), eiDelay := 0, nmiTriggered := true, nmiPending := false }) := by
  simp [step, stepWith, hf, select_nmi s h]

theorem step_maskable (s : State) (r : InterruptRequest) (hf : s.fault = none) (h : s.takesMaskable = some r) :
    step s = .next (handleInterrupt r
      { s with samplePoint := true, eiDelay := 0, pendingMaskable := s.pendingMaskable.tail }) := by
  simp [step, stepWith, hf, select_maskable s r h]

theorem step_quiet (s : State) (hf : s.fault = none) (h : s.quiet) :
    step s = runUninterrupted exec (beforeInstruction s) := by
  simp [step, stepWith, hf, select_none s h]

theorem step_halted (s : State) (hf : s.fault = none) (h : s.quiet) (hh : s.halted = true) :
    step s = .next (haltIdle (beforeInstruction s)) := by
  rw [step_quiet s hf h]
  simp [runUninterrupted, beforeInstruction, hh]

/-- A step that fetches, on the bytes at PC. -/
theorem step_fetch (s : State) (hf : s.fault = none) (h : s.quiet) (hh : s.halted = false) :
    step s =
      match fetchDecode (beforeInstruction s) with
      | .error r => .fault r
      | .ok (i, u) => exec i u := by
  rw [step_quiet s hf h]
  unfold runUninterrupted
  refine (if_neg (by simp [beforeInstruction, hh])).trans ?_
  cases fetchDecode (beforeInstruction s) <;> rfl

/-- `BeforeInstruction` leaves the bytes at PC. -/
theorem bytesAtPC_beforeInstruction (s : State) : (beforeInstruction s).bytesAtPC = s.bytesAtPC := rfl

/-- The state an instruction runs from. -/
theorem fetched_eq (s : State) (n : Nat) :
    (beforeInstruction s).setPC ((beforeInstruction s).pc + BitVec.ofNat 16 n) = s.fetched n := by
  rw [beforeInstruction_eq]
  rfl

/-- Every way a step can answer a next state: an NMI entry, the entry of the request at the head of the queue, the idle step
of a halted engine, or the meaning of the instruction at PC. -/
theorem step_next_cases (s t : State) (h : step s = .next t) :
    s.fault = none ∧
    ((s.takesNmi = true ∧ t = handleInterrupt nmiRequest
        { s with samplePoint := decide (s.eiDelay = 0), eiDelay := 0, nmiTriggered := true, nmiPending := false }) ∨
     (∃ r, s.takesMaskable = some r ∧ t = handleInterrupt r
        { s with samplePoint := true, eiDelay := 0, pendingMaskable := s.pendingMaskable.tail }) ∨
     (s.quiet ∧ s.halted = true ∧ t = haltIdle (beforeInstruction s)) ∨
     (s.quiet ∧ s.halted = false ∧
       ∃ i rest, decode s.bytesAtPC = .ok i rest ∧ exec i (s.fetched i.length) = .next t)) := by
  have hf : s.fault = none := by
    cases hf : s.fault with
    | none => rfl
    | some r =>
      rw [step_latched s r hf] at h
      cases h
  refine ⟨hf, ?_⟩
  rcases takes_cases s with hn | ⟨r, hm⟩ | hq
  · rw [step_nmi s hf hn] at h
    exact .inl ⟨hn, (Host.Outcome.next.inj h).symm⟩
  · rw [step_maskable s r hf hm] at h
    exact .inr (.inl ⟨r, hm, (Host.Outcome.next.inj h).symm⟩)
  · by_cases hh : s.halted = true
    · rw [step_halted s hf hq hh] at h
      exact .inr (.inr (.inl ⟨hq, hh, (Host.Outcome.next.inj h).symm⟩))
    · have hh : s.halted = false := by simpa using hh
      rw [step_fetch s hf hq hh] at h
      refine .inr (.inr (.inr ⟨hq, hh, ?_⟩))
      obtain ⟨h1, h2, h3, h4⟩ := fetchDecode_eq (beforeInstruction s)
      rw [bytesAtPC_beforeInstruction] at h1 h2 h3 h4
      cases hd : decode s.bytesAtPC with
      | ok i rest =>
        rw [h1 i rest hd, fetched_eq] at h
        exact ⟨i, rest, rfl, h⟩
      | unimplementedMain op =>
        rw [h2 op hd] at h
        cases h
      | unimplementedEd op2 =>
        rw [h3 op2 hd] at h
        cases h
      | truncated => exact absurd hd h4

end Sys2Proof.Machine
end

