-- ==== Sys2Proof/Tests/Slice0.lean ====
section
/-!
SUPPORT. The model's own tests, each a named theorem closed by decide on fixed values, and a witness for the hypotheses of
every statement. Expected results are taken from the spec: encodings from 30_encoding and opcode_table.json, steps from
the vectors of 95_test_vectors part 2 (configuration TESTCFG).
-/

namespace Sys2Proof.Tests

open Sys2Proof.Machine

/-! ## Well-formedness: each check refuses an ill-formed term -/

theorem test_wf_zero_cost_refused : Cyc.wf { Cyc.default with nop := 0 } = false := by decide

theorem test_wf_zero_entry_cost_refused :
    Config.wf { Config.testCfg with cyc := { Cyc.default with intIm2 := 0 } } = false := by
  decide

theorem test_wf_default_config : Config.testCfg.wf = true := by decide

theorem test_wf_long_image_refused : romImageWf (List.replicate 65537 0x00) = false := by
  simp only [romImageWf, List.length_replicate] <;> decide

theorem test_wf_full_image : romImageWf (List.replicate 65536 0x00) = true := by
  simp only [romImageWf, List.length_replicate] <;> decide

/-- A request from the null source. -/
def request (type : IntType) (vector : Byte) (priority : Int) : InterruptRequest :=
  ⟨type, vector, priority, ⟨"t", "test", .test, .test "t"⟩⟩

theorem test_wf_nonMaskable_in_queue_refused : queueWf [request .nonMaskable 0x00 1] = false := by decide

theorem test_wf_unsorted_queue_refused : queueWf [request .maskable 0x00 5, request .maskable 0x00 1] = false := by decide

theorem test_wf_sorted_queue :
    queueWf [request .maskable 0x01 1, request .maskable 0x02 1, request .maskable 0x00 5] = true := by
  decide

theorem test_wf_memory_descending_refused : Memory.wf [(2, 0x01), (1, 0x01)] = false := by decide

theorem test_wf_memory_repeat_refused : Memory.wf [(1, 0x01), (1, 0x02)] = false := by decide

theorem test_wf_memory_unlisted_byte_refused : Memory.wf [(1, 0x00)] = false := by decide

theorem test_wf_memory_address_refused : Memory.wf [(65536, 0x01)] = false := by decide

theorem test_memory_write_inserts_in_order :
    (Memory.write [(1, 0x01), (5, 0x05)] 3 0x03) = [(1, 0x01), (3, 0x03), (5, 0x05)] := by decide

theorem test_memory_write_zero_removes : (Memory.write [(1, 0x01), (5, 0x05)] 1 0x00) = [(5, 0x05)] := by decide

/-! ## Decoding: every row of the opcode table, its bytes written out from 30_encoding (R100, R101, R102) -/

def wordsRstHalt0 : List (List Byte × Instr) :=
  [([0x00], .nop), ([0x76], .halt), ([0xC7], .rst_00h), ([0xCF], .rst_08h),
   ([0xD7], .rst_10h), ([0xDF], .rst_18h), ([0xE7], .rst_20h), ([0xEF], .rst_28h),
   ([0xF7], .rst_30h), ([0xFF], .rst_38h)]

theorem test_decode_wordsRstHalt0 : wordsRstHalt0.all (fun w => decide (decode w.1 = .ok w.2 [])) = true := by decide

def wordsLoads0 : List (List Byte × Instr) :=
  [([0x01, 0x34, 0x12], .ld_BC_nn 0x1234), ([0x06, 0x9A], .ld_B_n 0x9A), ([0x0E, 0x9A], .ld_C_n 0x9A), ([0x11, 0x34, 0x12], .ld_DE_nn 0x1234),
   ([0x16, 0x9A], .ld_D_n 0x9A), ([0x1E, 0x9A], .ld_E_n 0x9A), ([0x21, 0x34, 0x12], .ld_HL_nn 0x1234), ([0x26, 0x9A], .ld_H_n 0x9A),
   ([0x2E, 0x9A], .ld_L_n 0x9A), ([0x31, 0x34, 0x12], .ld_SP_nn 0x1234), ([0x3E, 0x9A], .ld_A_n 0x9A), ([0x40], .ld_B_B),
   ([0x41], .ld_B_C), ([0x42], .ld_B_D), ([0x43], .ld_B_E), ([0x44], .ld_B_H),
   ([0x45], .ld_B_L), ([0x47], .ld_B_A), ([0x48], .ld_C_B), ([0x49], .ld_C_C),
   ([0x4A], .ld_C_D), ([0x4B], .ld_C_E), ([0x4C], .ld_C_H), ([0x4D], .ld_C_L),
   ([0x4F], .ld_C_A), ([0x50], .ld_D_B), ([0x51], .ld_D_C), ([0x52], .ld_D_D),
   ([0x53], .ld_D_E), ([0x54], .ld_D_H), ([0x55], .ld_D_L), ([0x57], .ld_D_A)]

theorem test_decode_wordsLoads0 : wordsLoads0.all (fun w => decide (decode w.1 = .ok w.2 [])) = true := by decide

def wordsLoads1 : List (List Byte × Instr) :=
  [([0x58], .ld_E_B), ([0x59], .ld_E_C), ([0x5A], .ld_E_D), ([0x5B], .ld_E_E),
   ([0x5C], .ld_E_H), ([0x5D], .ld_E_L), ([0x5F], .ld_E_A), ([0x60], .ld_H_B),
   ([0x61], .ld_H_C), ([0x62], .ld_H_D), ([0x63], .ld_H_E), ([0x64], .ld_H_H),
   ([0x65], .ld_H_L), ([0x67], .ld_H_A), ([0x68], .ld_L_B), ([0x69], .ld_L_C),
   ([0x6A], .ld_L_D), ([0x6B], .ld_L_E), ([0x6C], .ld_L_H), ([0x6D], .ld_L_L),
   ([0x6F], .ld_L_A), ([0x78], .ld_A_B), ([0x79], .ld_A_C), ([0x7A], .ld_A_D),
   ([0x7B], .ld_A_E), ([0x7C], .ld_A_H), ([0x7D], .ld_A_L), ([0x7F], .ld_A_A),
   ([0xF9], .ld_SP_HL)]

theorem test_decode_wordsLoads1 : wordsLoads1.all (fun w => decide (decode w.1 = .ok w.2 [])) = true := by decide

def wordsArith80 : List (List Byte × Instr) :=
  [([0x80], .add_A_B), ([0x81], .add_A_C), ([0x82], .add_A_D), ([0x83], .add_A_E),
   ([0x84], .add_A_H), ([0x85], .add_A_L), ([0x87], .add_A_A), ([0x88], .adc_A_B),
   ([0x89], .adc_A_C), ([0x8A], .adc_A_D), ([0x8B], .adc_A_E), ([0x8C], .adc_A_H),
   ([0x8D], .adc_A_L), ([0x8F], .adc_A_A), ([0x90], .sub_B), ([0x91], .sub_C),
   ([0x92], .sub_D), ([0x93], .sub_E), ([0x94], .sub_H), ([0x95], .sub_L),
   ([0x97], .sub_A), ([0x98], .sbc_A_B), ([0x99], .sbc_A_C), ([0x9A], .sbc_A_D),
   ([0x9B], .sbc_A_E), ([0x9C], .sbc_A_H), ([0x9D], .sbc_A_L), ([0x9F], .sbc_A_A),
   ([0xA0], .and_B), ([0xA1], .and_C), ([0xA2], .and_D), ([0xA3], .and_E)]

theorem test_decode_wordsArith80 : wordsArith80.all (fun w => decide (decode w.1 = .ok w.2 [])) = true := by decide

def wordsArith81 : List (List Byte × Instr) :=
  [([0xA4], .and_H), ([0xA5], .and_L), ([0xA7], .and_A), ([0xA8], .xor_B),
   ([0xA9], .xor_C), ([0xAA], .xor_D), ([0xAB], .xor_E), ([0xAC], .xor_H),
   ([0xAD], .xor_L), ([0xAF], .xor_A), ([0xB0], .or_B), ([0xB1], .or_C),
   ([0xB2], .or_D), ([0xB3], .or_E), ([0xB4], .or_H), ([0xB5], .or_L),
   ([0xB7], .or_A), ([0xB8], .cp_B), ([0xB9], .cp_C), ([0xBA], .cp_D),
   ([0xBB], .cp_E), ([0xBC], .cp_H), ([0xBD], .cp_L), ([0xBF], .cp_A),
   ([0xC6, 0x9A], .add_A_n 0x9A), ([0xCE, 0x9A], .adc_A_n 0x9A), ([0xD6, 0x9A], .sub_n 0x9A), ([0xDE, 0x9A], .sbc_A_n 0x9A),
   ([0xE6, 0x9A], .and_n 0x9A), ([0xEE, 0x9A], .xor_n 0x9A), ([0xF6, 0x9A], .or_n 0x9A), ([0xFE, 0x9A], .cp_n 0x9A)]

theorem test_decode_wordsArith81 : wordsArith81.all (fun w => decide (decode w.1 = .ok w.2 [])) = true := by decide

def wordsArith160 : List (List Byte × Instr) :=
  [([0x09], .add_HL_BC), ([0x19], .add_HL_DE), ([0x29], .add_HL_HL), ([0x39], .add_HL_SP),
   ([0xED, 0x42], .sbc_HL_BC), ([0xED, 0x4A], .adc_HL_BC), ([0xED, 0x52], .sbc_HL_DE), ([0xED, 0x5A], .adc_HL_DE),
   ([0xED, 0x62], .sbc_HL_HL), ([0xED, 0x6A], .adc_HL_HL), ([0xED, 0x72], .sbc_HL_SP), ([0xED, 0x7A], .adc_HL_SP)]

theorem test_decode_wordsArith160 : wordsArith160.all (fun w => decide (decode w.1 = .ok w.2 [])) = true := by decide

def wordsIncDec0 : List (List Byte × Instr) :=
  [([0x03], .inc_BC), ([0x04], .inc_B), ([0x05], .dec_B), ([0x0B], .dec_BC),
   ([0x0C], .inc_C), ([0x0D], .dec_C), ([0x13], .inc_DE), ([0x14], .inc_D),
   ([0x15], .dec_D), ([0x1B], .dec_DE), ([0x1C], .inc_E), ([0x1D], .dec_E),
   ([0x23], .inc_HL), ([0x24], .inc_H), ([0x25], .dec_H), ([0x2B], .dec_HL),
   ([0x2C], .inc_L), ([0x2D], .dec_L), ([0x33], .inc_SP), ([0x3B], .dec_SP),
   ([0x3C], .inc_A), ([0x3D], .dec_A)]

theorem test_decode_wordsIncDec0 : wordsIncDec0.all (fun w => decide (decode w.1 = .ok w.2 [])) = true := by decide

def wordsJumps0 : List (List Byte × Instr) :=
  [([0x18, 0x9A], .jr_e 0x9A), ([0x20, 0x9A], .jr_NZ_e 0x9A), ([0x28, 0x9A], .jr_Z_e 0x9A), ([0x30, 0x9A], .jr_NC_e 0x9A),
   ([0x38, 0x9A], .jr_C_e 0x9A), ([0xC2, 0x34, 0x12], .jp_NZ_nn 0x1234), ([0xC3, 0x34, 0x12], .jp_nn 0x1234), ([0xCA, 0x34, 0x12], .jp_Z_nn 0x1234),
   ([0xD2, 0x34, 0x12], .jp_NC_nn 0x1234), ([0xDA, 0x34, 0x12], .jp_C_nn 0x1234)]

theorem test_decode_wordsJumps0 : wordsJumps0.all (fun w => decide (decode w.1 = .ok w.2 [])) = true := by decide

def wordsStack0 : List (List Byte × Instr) :=
  [([0xC1], .pop_BC), ([0xC5], .push_BC), ([0xD1], .pop_DE), ([0xD5], .push_DE),
   ([0xE1], .pop_HL), ([0xE5], .push_HL), ([0xF1], .pop_AF), ([0xF5], .push_AF)]

theorem test_decode_wordsStack0 : wordsStack0.all (fun w => decide (decode w.1 = .ok w.2 [])) = true := by decide

def wordsIntCtl0 : List (List Byte × Instr) :=
  [([0xF3], .di), ([0xFB], .ei), ([0xED, 0x45], .retn), ([0xED, 0x46], .im_0),
   ([0xED, 0x4D], .reti), ([0xED, 0x56], .im_1), ([0xED, 0x5E], .im_2)]

theorem test_decode_wordsIntCtl0 : wordsIntCtl0.all (fun w => decide (decode w.1 = .ok w.2 [])) = true := by decide

theorem test_decode_unsupported_main : [0xCB, 0xDD, 0xFD, 0x36, 0x7E, 0xC9, 0xCD, 0xE9, 0x10].all
    (fun op => decide (decode [op, 0x00, 0x00] = .unimplementedMain op)) = true := by decide

theorem test_decode_unsupported_ed : [0x47, 0x55, 0x00, 0x4E, 0x76, 0x7E, 0xED].all
    (fun op => decide (decode [0xED, op, 0x00] = .unimplementedEd op)) = true := by decide

theorem test_decode_short_bytes :
    decode [] = .truncated ∧ decode [0xED] = .truncated ∧ decode [0x3E] = .truncated ∧ decode [0xC3, 0x00] = .truncated := by
  decide

theorem test_tableWord_rows :
    decodeTableWord 8 0x78 = some .ld_A_B ∧ decodeTableWord 8 0x01 = some (.ld_BC_nn 0) ∧
    decodeTableWord 24 0x123401 = some (.ld_BC_nn 0x1234) ∧ decodeTableWord 16 0x42ED = some .sbc_HL_BC ∧
    decodeTableWord 16 0xED42 = some .sbc_HL_BC ∧ decodeTableWord 8 0x36 = none := by decide

theorem test_withFetchWord_runs :
    (match step (State.reset.withFetchWord 16 0x5EED) with
      | .next t => decide (t.mode = .mode2 ∧ t.pc = 0x0002)
      | _ => false) = true := by decide

theorem test_withFetchWord_steps_over_pending :
    (match step ({ State.reset with halted := true, nmiPending := true }.withFetchWord 8 0x3C) with
      | .next t => decide (t.a = 0x01 ∧ t.pc = 0x0001)
      | _ => false) = true := by decide

/-! ## One step of each form, from 95_test_vectors sections 2.1 to 2.8 -/

/-- The state before a vector of part 2: PC at the instruction, its bytes in memory, everything else as after reset. -/
def place (pc : Word) (bytes : List Byte) : State :=
  { State.reset with pc := pc, mem := Memory.place [] pc bytes, samplePoint := true }

/-- One step from the state a vector gives leads to exactly the state the vector gives. -/
def stepsTo (start : State) (before after : State → State) : Bool :=
  match step (before start) with
  | .next t => decide (t = after (before start))
  | _ => false

theorem test_step_LD_B_A :
    stepsTo (place 0x0100 [0x47]) (fun s => { s with a := 0x5A, f := 0xD7 })
      (fun s => { s with b := 0x5A, pc := 0x0101, cycles := 4 }) = true := by decide

theorem test_step_LD_H_L :
    stepsTo (place 0x0100 [0x65]) (fun s => { s with l := 0x9C })
      (fun s => { s with h := 0x9C, pc := 0x0101, cycles := 4 }) = true := by decide

theorem test_step_LD_A_A :
    stepsTo (place 0x0100 [0x7F]) (fun s => { s with a := 0x33 })
      (fun s => { s with pc := 0x0101, cycles := 4 }) = true := by decide

theorem test_step_LD_E_n :
    stepsTo (place 0x0100 [0x1E, 0xFF]) (fun s => { s with e := 0x00 })
      (fun s => { s with e := 0xFF, pc := 0x0102, cycles := 7 }) = true := by decide

theorem test_step_LD_A_n :
    stepsTo (place 0xFFFF [0x3E, 0x42]) id
      (fun s => { s with a := 0x42, pc := 0x0001, cycles := 7 }) = true := by decide

theorem test_step_LD_SP_nn :
    stepsTo (place 0x0100 [0x31, 0xFE, 0xFF]) id
      (fun s => { s with sp := 0xFFFE, pc := 0x0103, cycles := 10 }) = true := by decide

theorem test_step_LD_HL_nn :
    stepsTo (place 0x0100 [0x21, 0x34, 0x12]) id
      (fun s => { s with h := 0x12, l := 0x34, pc := 0x0103, cycles := 10 }) = true := by decide

theorem test_step_LD_BC_nn :
    stepsTo (place 0xFFFE [0x01, 0xCD, 0xAB]) id
      (fun s => { s with b := 0xAB, c := 0xCD, pc := 0x0001, cycles := 10 }) = true := by decide

theorem test_step_LD_SP_HL :
    stepsTo (place 0x0100 [0xF9]) (fun s => { s with h := 0x80, l := 0x00 })
      (fun s => { s with sp := 0x8000, pc := 0x0101, cycles := 6 }) = true := by decide

theorem test_step_ADD_A_B :
    stepsTo (place 0x0100 [0x80]) (fun s => { s with a := 0xFF, b := 0x01, f := 0x00 })
      (fun s => { s with a := 0x00, f := 0x41, pc := 0x0101, cycles := 4 }) = true := by decide

theorem test_step_ADD_A_A :
    stepsTo (place 0x0100 [0x87]) (fun s => { s with a := 0x80, f := 0xBE })
      (fun s => { s with a := 0x00, f := 0xFF, pc := 0x0101, cycles := 4 }) = true := by decide

theorem test_step_ADD_A_n :
    stepsTo (place 0x0100 [0xC6, 0x00]) (fun s => { s with a := 0x00, f := 0x01 })
      (fun s => { s with f := 0x40, pc := 0x0102, cycles := 7 }) = true := by decide

theorem test_step_ADC_A_C :
    stepsTo (place 0x0100 [0x89]) (fun s => { s with a := 0xFF, c := 0xFF, f := 0x01 })
      (fun s => { s with pc := 0x0101, cycles := 4 }) = true := by decide

theorem test_step_ADC_A_n :
    stepsTo (place 0x0100 [0xCE, 0xFF]) (fun s => { s with a := 0x00, f := 0x01 })
      (fun s => { s with f := 0x41, pc := 0x0102, cycles := 7 }) = true := by decide

theorem test_step_ADC_A_A :
    stepsTo (place 0x0100 [0x8F]) (fun s => { s with a := 0x80, f := 0x01 })
      (fun s => { s with a := 0x01, pc := 0x0101, cycles := 4 }) = true := by decide

theorem test_step_SUB_D :
    stepsTo (place 0x0100 [0x92]) (fun s => { s with a := 0x00, d := 0x01, f := 0x40 })
      (fun s => { s with a := 0xFF, f := 0x01, pc := 0x0101, cycles := 4 }) = true := by decide

theorem test_step_SUB_A :
    stepsTo (place 0x0100 [0x97]) (fun s => { s with a := 0x77, f := 0x01 })
      (fun s => { s with a := 0x00, f := 0x40, pc := 0x0101, cycles := 4 }) = true := by decide

theorem test_step_SUB_n :
    stepsTo (place 0x0100 [0xD6, 0x80]) (fun s => { s with a := 0x80, f := 0x00 })
      (fun s => { s with a := 0x00, f := 0x40, pc := 0x0102, cycles := 7 }) = true := by decide

theorem test_step_SBC_A_E :
    stepsTo (place 0x0100 [0x9B]) (fun s => { s with a := 0x00, e := 0xFF, f := 0x01 })
      (fun s => { s with f := 0x41, pc := 0x0101, cycles := 4 }) = true := by decide

theorem test_step_SBC_A_n :
    stepsTo (place 0x0100 [0xDE, 0x00]) (fun s => { s with a := 0x00, f := 0x01 })
      (fun s => { s with a := 0xFF, pc := 0x0102, cycles := 7 }) = true := by decide

theorem test_step_SBC_A_A :
    stepsTo (place 0x0100 [0x9F]) (fun s => { s with a := 0x42, f := 0x01 })
      (fun s => { s with a := 0xFF, pc := 0x0101, cycles := 4 }) = true := by decide

theorem test_step_SBC_A_A_2 :
    stepsTo (place 0x0100 [0x9F]) (fun s => { s with a := 0x42, f := 0x00 })
      (fun s => { s with a := 0x00, f := 0x40, pc := 0x0101, cycles := 4 }) = true := by decide

theorem test_step_AND_H :
    stepsTo (place 0x0100 [0xA4]) (fun s => { s with a := 0xF0, h := 0x0F, f := 0x01 })
      (fun s => { s with a := 0x00, f := 0x40, pc := 0x0101, cycles := 4 }) = true := by decide

theorem test_step_AND_A :
    stepsTo (place 0x0100 [0xA7]) (fun s => { s with a := 0x81, f := 0x41 })
      (fun s => { s with f := 0x00, pc := 0x0101, cycles := 4 }) = true := by decide

theorem test_step_AND_n :
    stepsTo (place 0x0100 [0xE6, 0x7F]) (fun s => { s with a := 0xFF, f := 0xFF })
      (fun s => { s with a := 0x7F, f := 0xBE, pc := 0x0102, cycles := 7 }) = true := by decide

theorem test_step_XOR_A :
    stepsTo (place 0x0100 [0xAF]) (fun s => { s with a := 0xC3, f := 0x01 })
      (fun s => { s with a := 0x00, f := 0x40, pc := 0x0101, cycles := 4 }) = true := by decide

theorem test_step_XOR_L :
    stepsTo (place 0x0100 [0xAD]) (fun s => { s with a := 0xFF, l := 0x0F, f := 0x41 })
      (fun s => { s with a := 0xF0, f := 0x00, pc := 0x0101, cycles := 4 }) = true := by decide

theorem test_step_XOR_n :
    stepsTo (place 0x0100 [0xEE, 0xFF]) (fun s => { s with a := 0x00, f := 0x00 })
      (fun s => { s with a := 0xFF, pc := 0x0102, cycles := 7 }) = true := by decide

theorem test_step_OR_B :
    stepsTo (place 0x0100 [0xB0]) (fun s => { s with a := 0x00, b := 0x00, f := 0x01 })
      (fun s => { s with f := 0x40, pc := 0x0101, cycles := 4 }) = true := by decide

theorem test_step_OR_n :
    stepsTo (place 0x0100 [0xF6, 0x80]) (fun s => { s with a := 0x01, f := 0x41 })
      (fun s => { s with a := 0x81, f := 0x00, pc := 0x0102, cycles := 7 }) = true := by decide

theorem test_step_CP_C :
    stepsTo (place 0x0100 [0xB9]) (fun s => { s with a := 0x10, c := 0x10, f := 0x00 })
      (fun s => { s with f := 0x40, pc := 0x0101, cycles := 4 }) = true := by decide

theorem test_step_CP_n :
    stepsTo (place 0x0100 [0xFE, 0x11]) (fun s => { s with a := 0x10, f := 0x00 })
      (fun s => { s with f := 0x01, pc := 0x0102, cycles := 7 }) = true := by decide

theorem test_step_CP_n_2 :
    stepsTo (place 0x0100 [0xFE, 0x0F]) (fun s => { s with a := 0x10, f := 0x41 })
      (fun s => { s with f := 0x00, pc := 0x0102, cycles := 7 }) = true := by decide

theorem test_step_CP_A :
    stepsTo (place 0x0100 [0xBF]) (fun s => { s with a := 0xEE, f := 0x01 })
      (fun s => { s with f := 0x40, pc := 0x0101, cycles := 4 }) = true := by decide

theorem test_step_ADD_HL_BC :
    stepsTo (place 0x0100 [0x09]) (fun s => { s with h := 0xFF, l := 0xFF, b := 0x00, c := 0x01, f := 0x00 })
      (fun s => { s with h := 0x00, l := 0x00, f := 0x01, pc := 0x0101, cycles := 11 }) = true := by decide

theorem test_step_ADD_HL_BC_2 :
    stepsTo (place 0x0100 [0x09]) (fun s => { s with h := 0xFF, l := 0xFF, b := 0x00, c := 0x01, f := 0x40 })
      (fun s => { s with h := 0x00, l := 0x00, f := 0x41, pc := 0x0101, cycles := 11 }) = true := by decide

theorem test_step_ADD_HL_HL :
    stepsTo (place 0x0100 [0x29]) (fun s => { s with h := 0x80, l := 0x01, f := 0xFE })
      (fun s => { s with h := 0x00, l := 0x02, f := 0xFF, pc := 0x0101, cycles := 11 }) = true := by decide

theorem test_step_ADD_HL_SP :
    stepsTo (place 0x0100 [0x39]) (fun s => { s with h := 0x00, l := 0x01, sp := 0xF000, f := 0x01 })
      (fun s => { s with h := 0xF0, l := 0x01, f := 0x00, pc := 0x0101, cycles := 11 }) = true := by decide

theorem test_step_ADC_HL_DE :
    stepsTo (place 0x0100 [0xED, 0x5A]) (fun s => { s with h := 0xFF, l := 0xFF, d := 0x00, e := 0x00, f := 0x01 })
      (fun s => { s with h := 0x00, l := 0x00, f := 0x41, pc := 0x0102, cycles := 15 }) = true := by decide

theorem test_step_ADC_HL_HL :
    stepsTo (place 0x0100 [0xED, 0x6A]) (fun s => { s with h := 0x80, l := 0x00, f := 0x00 })
      (fun s => { s with h := 0x00, l := 0x00, f := 0x41, pc := 0x0102, cycles := 15 }) = true := by decide

theorem test_step_ADC_HL_SP :
    stepsTo (place 0x0100 [0xED, 0x7A]) (fun s => { s with h := 0x00, l := 0x00, sp := 0x0000, f := 0x00 })
      (fun s => { s with f := 0x40, pc := 0x0102, cycles := 15 }) = true := by decide

theorem test_step_SBC_HL_BC :
    stepsTo (place 0x0100 [0xED, 0x42]) (fun s => { s with h := 0x00, l := 0x00, b := 0x00, c := 0x00, f := 0x01 })
      (fun s => { s with h := 0xFF, l := 0xFF, pc := 0x0102, cycles := 15 }) = true := by decide

theorem test_step_SBC_HL_HL :
    stepsTo (place 0x0100 [0xED, 0x62]) (fun s => { s with h := 0x12, l := 0x34, f := 0x00 })
      (fun s => { s with h := 0x00, l := 0x00, f := 0x40, pc := 0x0102, cycles := 15 }) = true := by decide

theorem test_step_SBC_HL_HL_2 :
    stepsTo (place 0x0100 [0xED, 0x62]) (fun s => { s with h := 0x12, l := 0x34, f := 0x01 })
      (fun s => { s with h := 0xFF, l := 0xFF, pc := 0x0102, cycles := 15 }) = true := by decide

theorem test_step_SBC_HL_SP :
    stepsTo (place 0x0100 [0xED, 0x72]) (fun s => { s with h := 0xF0, l := 0x00, sp := 0xF000, f := 0x81 })
      (fun s => { s with h := 0xFF, l := 0xFF, pc := 0x0102, cycles := 15 }) = true := by decide

theorem test_step_INC_A :
    stepsTo (place 0x0100 [0x3C]) (fun s => { s with a := 0xFF, f := 0x01 })
      (fun s => { s with a := 0x00, f := 0x41, pc := 0x0101, cycles := 4 }) = true := by decide

theorem test_step_INC_L :
    stepsTo (place 0x0100 [0x2C]) (fun s => { s with l := 0x7F, f := 0x40 })
      (fun s => { s with l := 0x80, f := 0x00, pc := 0x0101, cycles := 4 }) = true := by decide

theorem test_step_DEC_B :
    stepsTo (place 0x0100 [0x05]) (fun s => { s with b := 0x00, f := 0x40 })
      (fun s => { s with b := 0xFF, f := 0x00, pc := 0x0101, cycles := 4 }) = true := by decide

theorem test_step_DEC_C :
    stepsTo (place 0x0100 [0x0D]) (fun s => { s with c := 0x01, f := 0x01 })
      (fun s => { s with c := 0x00, f := 0x41, pc := 0x0101, cycles := 4 }) = true := by decide

theorem test_step_INC_BC :
    stepsTo (place 0x0100 [0x03]) (fun s => { s with b := 0xFF, c := 0xFF, f := 0x00 })
      (fun s => { s with b := 0x00, c := 0x00, pc := 0x0101, cycles := 6 }) = true := by decide

theorem test_step_INC_SP :
    stepsTo (place 0x0100 [0x33]) (fun s => { s with sp := 0xFFFF })
      (fun s => { s with sp := 0x0000, pc := 0x0101, cycles := 6 }) = true := by decide

theorem test_step_DEC_HL :
    stepsTo (place 0x0100 [0x2B]) (fun s => { s with h := 0x00, l := 0x00, f := 0x40 })
      (fun s => { s with h := 0xFF, l := 0xFF, pc := 0x0101, cycles := 6 }) = true := by decide

theorem test_step_DEC_DE :
    stepsTo (place 0x0100 [0x1B]) (fun s => { s with d := 0x01, e := 0x00 })
      (fun s => { s with d := 0x00, e := 0xFF, pc := 0x0101, cycles := 6 }) = true := by decide

theorem test_step_JP_nn :
    stepsTo (place 0x0100 [0xC3, 0x34, 0x12]) id
      (fun s => { s with pc := 0x1234, cycles := 10 }) = true := by decide

theorem test_step_JP_nn_2 :
    stepsTo (place 0xFFFF [0xC3, 0x00, 0x80]) id
      (fun s => { s with pc := 0x8000, cycles := 10 }) = true := by decide

theorem test_step_JP_Z_nn :
    stepsTo (place 0x0100 [0xCA, 0x00, 0x20]) (fun s => { s with f := 0x40 })
      (fun s => { s with pc := 0x2000, cycles := 10 }) = true := by decide

theorem test_step_JP_Z_nn_2 :
    stepsTo (place 0x0100 [0xCA, 0x00, 0x20]) (fun s => { s with f := 0xBF })
      (fun s => { s with pc := 0x0103, cycles := 10 }) = true := by decide

theorem test_step_JP_NC_nn :
    stepsTo (place 0x0100 [0xD2, 0x00, 0x20]) (fun s => { s with f := 0x00 })
      (fun s => { s with pc := 0x2000, cycles := 10 }) = true := by decide

theorem test_step_JP_C_nn :
    stepsTo (place 0x0100 [0xDA, 0x00, 0x20]) (fun s => { s with f := 0x00 })
      (fun s => { s with pc := 0x0103, cycles := 10 }) = true := by decide

theorem test_step_JR_e :
    stepsTo (place 0x0100 [0x18, 0x80]) id
      (fun s => { s with pc := 0x0082, cycles := 12 }) = true := by decide

theorem test_step_JR_e_2 :
    stepsTo (place 0xFFFE [0x18, 0x10]) id
      (fun s => { s with pc := 0x0010, cycles := 12 }) = true := by decide

theorem test_step_JR_Z_e :
    stepsTo (place 0x0100 [0x28, 0x05]) (fun s => { s with f := 0x40 })
      (fun s => { s with pc := 0x0107, cycles := 12 }) = true := by decide

theorem test_step_JR_Z_e_2 :
    stepsTo (place 0x0100 [0x28, 0x05]) (fun s => { s with f := 0x00 })
      (fun s => { s with pc := 0x0102, cycles := 7 }) = true := by decide

theorem test_step_JR_NZ_e :
    stepsTo (place 0x0100 [0x20, 0x00]) (fun s => { s with f := 0x00 })
      (fun s => { s with pc := 0x0102, cycles := 12 }) = true := by decide

theorem test_step_JR_NC_e :
    stepsTo (place 0x0100 [0x30, 0xF0]) (fun s => { s with f := 0x01 })
      (fun s => { s with pc := 0x0102, cycles := 7 }) = true := by decide

theorem test_step_JR_C_e :
    stepsTo (place 0x0100 [0x38, 0xF0]) (fun s => { s with f := 0x01 })
      (fun s => { s with pc := 0x00F2, cycles := 12 }) = true := by decide

theorem test_step_PUSH_AF :
    stepsTo (place 0x0100 [0xF5]) (fun s => { s with a := 0x12, f := 0xFF, sp := 0xF000 })
      (fun s =>
        { s with
          sp := 0xEFFE, pc := 0x0101, cycles := 11,
          mem := ((s.mem.write 0xEFFF 0x12).write 0xEFFE 0xFF) }) = true := by decide

theorem test_step_PUSH_HL :
    stepsTo (place 0x0100 [0xE5])
      (fun s => { s with h := 0xBE, l := 0xEF, sp := 0x0001, config := { s.config with ramLo := 0x0000 } })
      (fun s =>
        { s with
          sp := 0xFFFF, pc := 0x0101, cycles := 11,
          mem := ((s.mem.write 0x0000 0xBE).write 0xFFFF 0xEF) }) = true := by decide

theorem test_step_PUSH_HL_2 :
    stepsTo (place 0x0100 [0xE5]) (fun s => { s with h := 0xBE, l := 0xEF, sp := 0x0001 })
      (fun s =>
        { s with
          sp := 0xFFFF, pc := 0x0101, cycles := 11,
          mem := (s.mem.write 0xFFFF 0xEF) }) = true := by decide

theorem test_step_PUSH_DE :
    stepsTo (place 0x0100 [0xD5]) (fun s => { s with d := 0xCA, e := 0xFE, sp := 0x8001 })
      (fun s =>
        { s with
          sp := 0x7FFF, pc := 0x0101, cycles := 11,
          mem := (s.mem.write 0x8000 0xCA) }) = true := by decide

theorem test_step_POP_AF :
    stepsTo (place 0x0100 [0xF1])
      (fun s => { s with sp := 0xEFFE, mem := ((s.mem.write 0xEFFE 0xD7).write 0xEFFF 0x99) })
      (fun s => { s with a := 0x99, f := 0xD7, sp := 0xF000, pc := 0x0101, cycles := 10 }) = true := by decide

theorem test_step_POP_BC :
    stepsTo (place 0x0100 [0xC1])
      (fun s => { s with sp := 0xFFFF, mem := ((s.mem.write 0xFFFF 0x34).write 0x0000 0x12) })
      (fun s => { s with b := 0x12, c := 0x34, sp := 0x0001, pc := 0x0101, cycles := 10 }) = true := by decide

theorem test_step_POP_HL :
    stepsTo (place 0x0100 [0xE1]) (fun s => { s with sp := 0x0100 })
      (fun s => { s with h := 0x00, l := 0xE1, sp := 0x0102, pc := 0x0101, cycles := 10 }) = true := by decide

theorem test_step_EI :
    stepsTo (place 0x0100 [0xFB]) (fun s => { s with iff1 := false, iff2 := false })
      (fun s => { s with iff1 := true, iff2 := true, eiDelay := 1, pc := 0x0101, cycles := 4 }) = true := by decide

theorem test_step_EI_2 :
    stepsTo (place 0x0100 [0xFB]) (fun s => { s with iff1 := true, iff2 := true, eiDelay := 0 })
      (fun s => { s with eiDelay := 1, pc := 0x0101, cycles := 4 }) = true := by decide

theorem test_step_DI :
    stepsTo (place 0x0100 [0xF3]) (fun s => { s with iff1 := true, iff2 := true, eiDelay := 0 })
      (fun s => { s with iff1 := false, iff2 := false, pc := 0x0101, cycles := 4 }) = true := by decide

theorem test_step_IM_0 :
    stepsTo (place 0x0100 [0xED, 0x46]) (fun s => { s with mode := .mode2 })
      (fun s => { s with mode := .mode0, pc := 0x0102, cycles := 8 }) = true := by decide

theorem test_step_IM_1 :
    stepsTo (place 0x0100 [0xED, 0x56]) (fun s => { s with mode := .mode0 })
      (fun s => { s with mode := .mode1, pc := 0x0102, cycles := 8 }) = true := by decide

theorem test_step_IM_2 :
    stepsTo (place 0x0100 [0xED, 0x5E]) (fun s => { s with mode := .mode1 })
      (fun s => { s with mode := .mode2, pc := 0x0102, cycles := 8 }) = true := by decide

theorem test_step_RETI :
    stepsTo (place 0x0100 [0xED, 0x4D])
      (fun s => { s with sp := 0xEFFE, iff1 := false, iff2 := true, mem := ((s.mem.write 0xEFFE 0x02).write 0xEFFF 0x00) })
      (fun s => { s with pc := 0x0002, sp := 0xF000, iff1 := true, cycles := 14 }) = true := by decide

theorem test_step_RETI_2 :
    stepsTo (place 0x0100 [0xED, 0x4D])
      (fun s => { s with sp := 0xEFFE, iff1 := true, iff2 := false, mem := ((s.mem.write 0xEFFE 0x02).write 0xEFFF 0x00) })
      (fun s => { s with pc := 0x0002, sp := 0xF000, iff1 := false, cycles := 14 }) = true := by decide

theorem test_step_RETN :
    stepsTo (place 0x0100 [0xED, 0x45])
      (fun s => { s with sp := 0xEFFE, iff1 := false, iff2 := false, mem := ((s.mem.write 0xEFFE 0x34).write 0xEFFF 0x12) })
      (fun s => { s with pc := 0x1234, sp := 0xF000, cycles := 14 }) = true := by decide

theorem test_step_RETN_2 :
    stepsTo (place 0x0100 [0xED, 0x45])
      (fun s => { s with sp := 0xEFFE, iff1 := false, iff2 := true, mem := ((s.mem.write 0xEFFE 0x34).write 0xEFFF 0x12) })
      (fun s => { s with pc := 0x1234, sp := 0xF000, iff1 := true, cycles := 14 }) = true := by decide

theorem test_step_RST_00h :
    stepsTo (place 0x0100 [0xC7]) (fun s => { s with sp := 0xF000 })
      (fun s =>
        { s with
          pc := 0x0000, sp := 0xEFFE, cycles := 11,
          mem := ((s.mem.write 0xEFFF 0x01).write 0xEFFE 0x01) }) = true := by decide

theorem test_step_RST_38h :
    stepsTo (place 0xFFFF [0xFF]) (fun s => { s with sp := 0xF000 })
      (fun s =>
        { s with
          pc := 0x0038, sp := 0xEFFE, cycles := 11,
          mem := ((s.mem.write 0xEFFF 0x00).write 0xEFFE 0x00) }) = true := by decide

theorem test_step_RST_28h :
    stepsTo (place 0x0100 [0xEF]) (fun s => { s with sp := 0x4000 })
      (fun s => { s with pc := 0x0028, sp := 0x3FFE, cycles := 11 }) = true := by decide

theorem test_step_HALT :
    stepsTo (place 0x0100 [0x76]) id
      (fun s => { s with halted := true, pc := 0x0101, cycles := 4 }) = true := by decide

theorem test_step_NOP :
    stepsTo (place 0x0100 [0x00]) (fun s => { s with f := 0xFF })
      (fun s => { s with pc := 0x0101, cycles := 4 }) = true := by decide

theorem test_step_NOP_2 :
    stepsTo (place 0xFFFF [0x00]) id
      (fun s => { s with pc := 0x0000, cycles := 4 }) = true := by decide

/-! ## Failures and the halted step, from sections 2.8 and 2.9 -/

/-- One step from a vector's state fails with this reason. -/
def failsWith (start : State) (r : Fault) : Bool :=
  match step start with
  | .fault q => decide (q = r)
  | _ => false

theorem test_fail_call : failsWith (place 0x0100 [0xCD, 0x00, 0x00]) (.unimplementedOpcode 0x0100 0xCD none) = true := by
  decide

theorem test_fail_prefix_cb : failsWith (place 0x0100 [0xCB, 0x00]) (.unimplementedOpcode 0x0100 0xCB none) = true := by
  decide

theorem test_fail_ld_i_a : failsWith (place 0x0100 [0xED, 0x47]) (.unimplementedOpcode 0x0100 0xED (some 0x47)) = true := by
  decide

theorem test_fail_latched :
    failsWith { place 0x0100 [0x00] with fault := some (.unimplementedOpcode 0x0200 0xCD none) }
      (.unimplementedOpcode 0x0200 0xCD none) = true := by decide

theorem test_latchFault_advances_pc :
    (latchFault (place 0x0100 [0xED, 0x47]) (.unimplementedOpcode 0x0100 0xED (some 0x47))).pc = 0x0102 := by decide

theorem test_step_halted :
    stepsTo (place 0x0101 []) (fun s => { s with halted := true }) (fun s => { s with cycles := 4 }) = true := by decide

/-! ## Interrupt entry, from section 2.10 -/

/-- The state before the vectors of 2.10: PC 0x1234, SP 0xF000, interrupts enabled, the requests made. -/
def entry (mode : IntMode) (requests : List InterruptRequest) : State :=
  requests.foldl (fun s r => requestInterrupt r s) { place 0x1234 [] with iff1 := true, iff2 := true, mode := mode }

/-- What every entry of 2.10 does beside PC and cost. -/
def entered (pc : Word) (cost : Nat) (s : State) : State :=
  { s with
    pc := pc, sp := 0xEFFE, mem := (s.mem.write 0xEFFF 0x12).write 0xEFFE 0x34, iff1 := false, iff2 := s.iff1,
    halted := false, pendingMaskable := s.pendingMaskable.tail, cycles := BitVec.ofNat 64 cost }

theorem test_entry_e1_nmi_wakes_and_coalesces :
    stepsTo (entry .mode0 [request .nonMaskable 0 0, request .nonMaskable 0 0])
      (fun s => { s with iff1 := false, iff2 := false, halted := true })
      (fun s => { entered 0x0066 11 s with nmiPending := false }) = true := by decide

theorem test_entry_e2_nmi_first :
    stepsTo (entry .mode1 [request .maskable 0x10 7, request .nonMaskable 0 0]) id
      (fun s => { entered 0x0066 11 s with nmiPending := false, pendingMaskable := s.pendingMaskable }) = true := by decide

theorem test_entry_e3_mode0_restarts :
    [(0xC7, 0x0000), (0xCF, 0x0008), (0xD7, 0x0010), (0xDF, 0x0018), (0xE7, 0x0020), (0xEF, 0x0028)].all
      (fun x => stepsTo (entry .mode0 [request .maskable x.1 5]) id (entered x.2 13)) = true := by decide

theorem test_entry_e3_mode0_fallback :
    [(0xF7, 0x0030), (0xFF, 0x0038), (0x00, 0x0038), (0xC3, 0x0038), (0xC6, 0x0038), (0x47, 0x0038)].all
      (fun x => stepsTo (entry .mode0 [request .maskable x.1 5]) id (entered x.2 13)) = true := by decide

theorem test_entry_e4_mode1 :
    stepsTo (entry .mode1 [request .maskable 0xC7 5]) id (entered 0x0038 13) = true := by decide

theorem test_entry_e5_mode2 :
    stepsTo (entry .mode2 [request .maskable 0xCD 5])
      (fun s => { s with i := 0xAB, mem := (s.mem.write 0xABCD 0x78).write 0xABCE 0x56 }) (entered 0x5678 19) = true := by
  decide

theorem test_entry_e5_mode2_direct :
    stepsTo (entry .mode2 [request .maskable 0xCD 5])
      (fun s => { s with i := 0xAB, config := { s.config with im2Indirect := false } }) (entered 0xABCD 19) = true := by
  decide

theorem test_entry_e6_mode2_wraps :
    stepsTo (entry .mode2 [request .maskable 0xFF 5]) (fun s => { s with i := 0xFF, mem := s.mem.write 0x0000 0x40 })
      (entered 0x4000 19) = true := by decide

theorem test_entry_e7_mode2_reads_after_push :
    stepsTo (entry .mode2 [request .maskable 0xFE 5]) (fun s => { s with i := 0xEF }) (entered 0x1234 19) = true := by
  decide

theorem test_entry_e8_masked :
    stepsTo (entry .mode1 [request .maskable 0xFF 5]) (fun s => { s with iff1 := false, iff2 := false })
      (fun s => { s with pc := 0x1235, cycles := 4 }) = true := by decide

theorem test_entry_e9_shadow :
    stepsTo (entry .mode1 [request .maskable 0xFF 5]) (fun s => { s with eiDelay := 1 })
      (fun s => { s with pc := 0x1235, cycles := 4, eiDelay := 0, samplePoint := false }) = true := by decide

theorem test_entry_e10_return_address_lost :
    stepsTo (entry .mode1 [request .maskable 0x00 5]) (fun s => { s with sp := 0x4000 })
      (fun s => { entered 0x0038 13 s with sp := 0x3FFE, mem := s.mem }) = true := by decide

theorem test_entry_e11_before_fetch :
    stepsTo (entry .mode1 [request .maskable 0x00 5]) (fun s => { s with mem := s.mem.write 0x1234 0xCD })
      (entered 0x0038 13) = true := by decide

theorem test_queue_x10_order :
    (entry .mode1 [request .maskable 0 10, request .maskable 0 5, request .maskable 0 1]).pendingMaskable.map (·.priority) =
      [1, 5, 10] := by decide

theorem test_queue_x1_stable :
    (entry .mode1 [request .maskable 0xA1 5, request .maskable 0xA2 5, request .maskable 0xA3 1]).pendingMaskable.map
      (·.vector) = [0xA3, 0xA1, 0xA2] := by decide

/-! ## Reset and the host's moves -/

theorem test_reset_keeps_registers :
    engineReset { place 0x0100 [0x00] with a := 0x5A, sp := 0x1234, iff1 := true, eiDelay := 1, i := 0xAB, mode := .mode2 } =
      { place 0x0000 [] with a := 0x5A, mem := [] } := by decide

theorem test_loadRom_places_image :
    (loadRom [0xFB, 0x00, 0x76] State.reset).map (fun s => (s.mem, s.romSize)) = some ([(0, 0xFB), (2, 0x76)], 3) := by decide

theorem test_writeRange_drops_outside_window :
    (inspectWriteRange 0x7FFF [0x11, 0x22] State.reset).mem = [(0x8000, 0x22)] := by decide

/-! ## Witnesses: a state and operands that meet the hypotheses of each statement, and of each of its clauses -/

/-- O1 to O3, O11, O12, O17, O60: there are registers that differ. -/
theorem witness_registers_differ :
    Reg8.b ≠ Reg8.c ∧ RegDD.bc ≠ RegDD.sp ∧ RegQQ.bc ≠ RegQQ.af ∧ InspectReg.a ≠ InspectReg.pc := by decide

/-- O14: each condition holds of some F and fails of some F. -/
theorem witness_conditions :
    condHolds .nz 0xBF = true ∧ condHolds .nz 0x40 = false ∧ condHolds .z 0x40 = true ∧ condHolds .z 0xBF = false ∧
    condHolds .nc 0xFE = true ∧ condHolds .nc 0x01 = false ∧ condHolds .c 0x01 = true ∧ condHolds .c 0xFE = false := by
  decide

/-- A halted state. -/
def haltedState : State := { place 0x0101 [] with halted := true }

/-- O22, O26. -/
theorem witness_halted : haltedState.fault = none ∧ haltedState.quiet ∧ haltedState.halted = true :=
  ⟨rfl, ⟨rfl, rfl⟩, rfl⟩

/-- O25, with an instruction of one, two and three bytes, the last one across the top of the address space. -/
theorem witness_step_decodes :
    (place 0x0100 [0x78]).fault = none ∧ (place 0x0100 [0x78]).quiet ∧ (place 0x0100 [0x78]).halted = false ∧
    decode (place 0x0100 [0x78]).bytesAtPC = .ok .ld_A_B [0x00, 0x00] ∧ Instr.wf .ld_A_B = true ∧
    decode (place 0x0100 [0xED, 0x4D]).bytesAtPC = .ok .reti [0x00] ∧
    decode (place 0xFFFE [0xC3, 0x34, 0x12]).bytesAtPC = .ok (.jp_nn 0x1234) [] := by
  refine ⟨rfl, ⟨rfl, rfl⟩, rfl, ?_⟩
  decide

/-- O27: the three ways to fail. -/
theorem witness_failing :
    (place 0x0100 [0xCD]).fault = none ∧ (place 0x0100 [0xCD]).quiet ∧ (place 0x0100 [0xCD]).halted = false ∧
    decode (place 0x0100 [0xCD]).bytesAtPC = .unimplementedMain 0xCD ∧
    decode (place 0x0100 [0xED, 0x47]).bytesAtPC = .unimplementedEd 0x47 ∧
    ({ place 0x0100 [] with fault := some (.unimplementedOpcode 0 0xCD none) } : State).fault ≠ none := by
  refine ⟨rfl, ⟨rfl, rfl⟩, rfl, ?_⟩
  decide

/-- O28, NMI: taken whatever `iff1` is. -/
theorem witness_entry_nmi :
    (entry .mode1 [request .nonMaskable 0 0]).fault = none ∧ (entry .mode1 [request .nonMaskable 0 0]).takesNmi = true ∧
    ({ entry .mode1 [request .nonMaskable 0 0] with iff1 := false } : State).takesNmi = true := by decide

/-- O28, maskable, in each mode: the request at the head of the queue is taken. -/
theorem witness_entry_maskable :
    [IntMode.mode0, .mode1, .mode2].all (fun m =>
      decide ((entry m [request .maskable 0xFE 5]).takesMaskable = some (request .maskable 0xFE 5)) &&
      decide ((entry m [request .maskable 0xFE 5]).mode = m)) = true := by decide

/-- O28, the clauses of Mode0 and of Mode2. -/
theorem witness_entry_clauses :
    (0xC7 : Byte) &&& 0xC7 = 0xC7 ∧ (0xFF : Byte) &&& 0xC7 = 0xC7 ∧ (0xC6 : Byte) &&& 0xC7 ≠ 0xC7 ∧
    (0x00 : Byte) &&& 0xC7 ≠ 0xC7 ∧ Config.testCfg.im2Indirect = true ∧
    ({ Config.testCfg with im2Indirect := false } : Config).im2Indirect = false := by decide

/-- O29: a byte that is a restart, the first and the last, and a byte that is none. -/
theorem witness_mode0 :
    (0xC7 : Byte) = (0xC7 ||| (RstTarget.to00.code <<< 3)) ∧ (0xFF : Byte) = (0xC7 ||| (RstTarget.to38.code <<< 3)) ∧
    ∀ p : RstTarget, (0xC6 : Byte) ≠ (0xC7 ||| (p.code <<< 3)) := by
  refine ⟨by decide, by decide, fun p => ?_⟩
  cases p <;> decide

/-- O31: an NMI latched; no NMI with a request that can be taken, also while a selected NMI holds a second one off; and each
reason to take nothing. -/
theorem witness_selection :
    (entry .mode0 [request .nonMaskable 0 0]).nmiPending = true ∧
    (entry .mode0 [request .nonMaskable 0 0]).nmiTriggered = false ∧
    ¬ (({ entry .mode0 [request .nonMaskable 0 0] with nmiTriggered := true } : State).nmiPending = true ∧
       ({ entry .mode0 [request .nonMaskable 0 0] with nmiTriggered := true } : State).nmiTriggered = false) ∧
    (entry .mode0 [request .maskable 0 0]).nmiPending = false ∧ (entry .mode0 [request .maskable 0 0]).iff1 = true ∧
    (entry .mode0 [request .maskable 0 0]).samplePoint = true ∧
    (entry .mode0 [request .maskable 0 0]).pendingMaskable = request .maskable 0 0 :: [] ∧
    State.reset.iff1 = false ∧ State.reset.samplePoint = false ∧ State.reset.pendingMaskable = [] := by decide

/-- O32: each type, each mode. -/
theorem witness_process :
    (request .nonMaskable 0 0).type = .nonMaskable ∧ (request .maskable 0xCD 5).type = .maskable ∧
    (entry .mode0 []).mode = .mode0 ∧ (entry .mode1 []).mode = .mode1 ∧ (entry .mode2 []).mode = .mode2 := by decide

/-- O33: a sorted queue with entries of lower, equal and higher number. -/
theorem witness_request :
    (request .nonMaskable 0 0).type = .nonMaskable ∧ (request .maskable 0 5).type = .maskable ∧
    queueSorted [request .maskable 1 4, request .maskable 2 5, request .maskable 3 6] = true := by decide

/-- O34. -/
theorem witness_arrivals :
    State.reset.pendingMaskable = [] ∧
    [request .maskable 0 10, request .maskable 1 5, request .maskable 2 5].all (fun r => decide (r.type = .maskable)) = true := by
  decide

/-- O35. -/
theorem witness_latch :
    (request .nonMaskable 0 0).type = .nonMaskable ∧ (request .nonMaskable 1 7).type = .nonMaskable ∧
    (request .maskable 0 0).type = .maskable ∧ ∃ t, step (entry .mode0 [request .nonMaskable 0 0]) = .next t :=
  ⟨rfl, rfl, rfl, _, rfl⟩

/-- O38: the first and the last address of the window, the addresses just outside a window, and an empty window. -/
theorem witness_window :
    (State.reset.config.ramLo.toNat ≤ (0x8000 : Word).toNat ∧ (0x8000 : Word).toNat ≤ State.reset.config.ramHi.toNat) ∧
    (State.reset.config.ramLo.toNat ≤ (0xFFFF : Word).toNat ∧ (0xFFFF : Word).toNat ≤ State.reset.config.ramHi.toNat) ∧
    ¬ (State.reset.config.ramLo.toNat ≤ (0x7FFF : Word).toNat ∧ (0x7FFF : Word).toNat ≤ State.reset.config.ramHi.toNat) ∧
    Config.inRam { Config.testCfg with ramHi := 0xEFFF } 0xF000 = false ∧
    Config.inRam { Config.testCfg with ramHi := 0x7FFF } 0x8000 = false := by decide

/-- O40, O55: a stack whose two bytes are stored, at the bottom of the window and after a wrap of SP. -/
theorem witness_stack_stored :
    Config.testCfg.inRam (0x8002 - 1) = true ∧ Config.testCfg.inRam (0x8002 - 2) = true ∧
    Config.testCfg.inRam (0x0000 - 1) = true ∧ Config.testCfg.inRam (0x0000 - 2) = true ∧
    Config.testCfg.inRam (0x8001 - 2) = false := by decide

/-- O42. -/
theorem witness_wf : Instr.wf .nop = true ∧ Instr.wf (.jp_nn 0xFFFF) = true := by decide

theorem reset_inv : State.reset.Inv := ⟨by decide, by decide, by decide, by decide⟩

theorem entry_inv : (entry .mode2 [request .maskable 0xCD 5, request .maskable 0xCE 5]).Inv :=
  ⟨by decide, by decide, by decide, by decide⟩

/-- O45, O50: a step from a state that meets the invariant, one that runs an instruction and one that takes a request. -/
theorem witness_step_inv :
    State.reset.Inv ∧ State.reset.config.wf = true ∧ (∃ t, step State.reset = .next t) ∧
    (entry .mode2 [request .maskable 0xCD 5, request .maskable 0xCE 5]).Inv ∧
    ∃ t, step (entry .mode2 [request .maskable 0xCD 5, request .maskable 0xCE 5]) = .next t :=
  ⟨reset_inv, by decide, ⟨_, rfl⟩, entry_inv, _, rfl⟩

/-- O46. -/
theorem witness_reset_any : (place 0x8000 [0x01]).mem.wf = true ∧ (place 0x8000 [0x01]).config.wf = true := by decide

/-- O47: every move of the host. -/
theorem witness_moves :
    State.reset.Inv ∧
    [HostMove.configure 3 4 0x8000 0xFFFF 0xF000, .loadRom [0x00], .reset, .request (request .maskable 0 0),
      .request (request .nonMaskable 0 0), .setVectorRegister 0xAB, .setInterruptMode .mode2, .writeReg .sp 0x9000,
      .writeMem 0x8000 [0x01]].all (fun m => (m.apply State.reset).isSome) = true :=
  ⟨reset_inv, by decide⟩

/-- O48, O49: an address outside the window, an address off the stack, and an instruction that stores nothing. -/
theorem witness_no_store :
    State.reset.config.inRam 0x7FFF = false ∧ (∃ t, step State.reset = .next t) ∧
    (0x9000 : Word) ≠ State.reset.sp - 1 ∧ (0x9000 : Word) ≠ State.reset.sp - 2 ∧
    (∃ t, exec .pop_AF State.reset = .next t) ∧ (∀ qq, Instr.pop_AF ≠ .push qq) ∧ ∀ p, Instr.pop_AF ≠ .rst p := by
  refine ⟨by decide, ⟨_, rfl⟩, by decide, by decide, ⟨_, rfl⟩, fun qq => ?_, fun p => ?_⟩
  · cases qq <;> decide
  · cases p <;> decide

/-- O51: a step that runs an instruction other than POP AF, with the bits it speaks of. -/
theorem witness_flags_kept :
    (∃ t, step (place 0x0100 [0x87]) = .next t) ∧ (place 0x0100 [0x87]).quiet ∧ (place 0x0100 [0x87]).halted = false ∧
    ∀ rest, decode (place 0x0100 [0x87]).bytesAtPC ≠ .ok .pop_AF rest := by
  refine ⟨⟨_, rfl⟩, ⟨rfl, rfl⟩, rfl, fun rest h => ?_⟩
  have : decode (place 0x0100 [0x87]).bytesAtPC = .ok .add_A_A [0x00, 0x00] := by decide
  rw [this] at h
  cases h

/-- O52: an instruction outside every exception the statement names, and each of those that is one. -/
theorem witness_control_frame :
    (∃ t, exec .add_A_B State.reset = .next t) ∧ (∀ m, Instr.add_A_B ≠ .im m) ∧ Instr.add_A_B ≠ .ei ∧
    Instr.add_A_B ≠ .di ∧ Instr.add_A_B ≠ .reti ∧ Instr.add_A_B ≠ .retn ∧ Instr.add_A_B ≠ .halt ∧
    (∃ t, exec .reti State.reset = .next t) ∧ Instr.reti ≠ .ei ∧ Instr.reti ≠ .di := by
  refine ⟨⟨_, rfl⟩, fun m => ?_, by decide, by decide, by decide, by decide, by decide, ⟨_, rfl⟩, by decide, by decide⟩
  cases m <;> decide

/-- O53: a step that takes an interrupt in the Halted state, a step that stays halted, and a step that runs HALT. -/
theorem witness_halted_clauses :
    (∃ t, step (entry .mode0 [request .nonMaskable 0 0]) = .next t) ∧ ¬ (entry .mode0 [request .nonMaskable 0 0]).quiet ∧
    (∃ t, step haltedState = .next t) ∧ haltedState.quiet ∧ haltedState.halted = true ∧
    (∃ t, step (place 0x0002 [0x76]) = .next t) ∧ (place 0x0002 [0x76]).quiet ∧ (place 0x0002 [0x76]).halted = false := by
  refine ⟨⟨_, rfl⟩, fun h => ?_, ⟨_, rfl⟩, ⟨rfl, rfl⟩, rfl, ⟨_, rfl⟩, ⟨rfl, rfl⟩, rfl⟩
  exact absurd h.1 (by decide)

/-- O54: a step after which the delay is armed. -/
theorem witness_shadow :
    (∃ t, exec .ei State.reset = .next t) ∧ ∃ t, step (place 0x0100 [0xFB]) = .next t ∧ t.eiDelay ≠ 0 :=
  ⟨⟨_, rfl⟩, _, rfl, by decide⟩

/-- O55: an entry, and both returns. -/
theorem witness_return :
    (entry .mode1 [request .maskable 0 0]).config.inRam ((entry .mode1 [request .maskable 0 0]).sp - 1) = true ∧
    (entry .mode1 [request .maskable 0 0]).config.inRam ((entry .mode1 [request .maskable 0 0]).sp - 2) = true ∧
    (let cyc := (entry .mode1 [request .maskable 0 0]).config.cyc
     ((Instr.reti = .reti ∧ cyc.reti = cyc.reti) ∨ (Instr.reti = .retn ∧ cyc.reti = cyc.retn)) ∧
     ((Instr.retn = .reti ∧ cyc.retn = cyc.reti) ∨ (Instr.retn = .retn ∧ cyc.retn = cyc.retn))) := by decide

/-- O56: an NMI taken with interrupts disabled, and a return from its handler. -/
theorem witness_nested :
    ({ entry .mode1 [request .nonMaskable 0 0] with iff1 := false } : State).fault = none ∧
    ({ entry .mode1 [request .nonMaskable 0 0] with iff1 := false } : State).takesNmi = true ∧
    ∃ t, step { entry .mode1 [request .nonMaskable 0 0] with iff1 := false } = .next t ∧ t.iff2 = false ∧
      ∃ v, exec .retn t = .next v :=
  ⟨rfl, rfl, _, rfl, rfl, _, rfl⟩

/-- O57: two values of F that differ in the reserved bits alone, and an instruction that runs on both. -/
theorem witness_reserved_bits :
    Instr.adc_A_B ≠ .push_AF ∧ (0xBE : Byte).getLsbD 6 = State.reset.f.getLsbD 6 ∧
    (0xBE : Byte).getLsbD 0 = State.reset.f.getLsbD 0 ∧ (0xBE : Byte) ≠ State.reset.f ∧
    (∃ t, exec .adc_A_B State.reset = .next t) ∧ ∃ u, exec .adc_A_B { State.reset with f := 0xBE } = .next u :=
  ⟨by decide, by decide, by decide, by decide, ⟨_, rfl⟩, _, rfl⟩

/-- O58: a step that goes on, and a step that fails. -/
theorem witness_cycles :
    (∃ t, step State.reset = .next t) ∧
    step (place 0x0100 [0xCD]) = .fault (.unimplementedOpcode 0x0100 0xCD none) := ⟨⟨_, rfl⟩, rfl⟩

/-- O59: the longest image that fits, and one byte more. -/
theorem witness_images :
    (List.replicate 65536 (0x01 : Byte)).length ≤ 65536 ∧ 65536 < (List.replicate 65537 (0x01 : Byte)).length := by
  simp only [List.length_replicate] <;> decide

/-- O60: the longest range, an address in it and one outside it, and moves that are no writer of I. -/
theorem witness_host_moves :
    (List.replicate 65536 (0x01 : Byte)).length ≤ 65536 ∧ ((0x0000 : Word) - 0xFFFF).toNat < [(0x11 : Byte), 0x22].length ∧
    ¬ ((0x0001 : Word) - 0xFFFF).toNat < [(0x11 : Byte), 0x22].length ∧
    (∃ t, (HostMove.setInterruptMode .mode2).apply State.reset = some t) ∧ HostMove.setInterruptMode .mode2 ≠ .reset ∧
    (∀ v, HostMove.setInterruptMode .mode2 ≠ .setVectorRegister v) ∧
    (∃ t, (HostMove.loadRom [0x76]).apply State.reset = some t) :=
  ⟨by simp only [List.length_replicate] <;> decide, by decide, by decide, ⟨_, rfl⟩, by decide, fun v h => (by cases h), _, rfl⟩

/-- O35, O53: host moves that are neither Reset nor a request, of a state with the NMI latched and of a Halted one. -/
theorem witness_other_moves :
    (∃ t, (HostMove.setVectorRegister 0xAB).apply (entry .mode0 [request .nonMaskable 0 0]) = some t) ∧
    (entry .mode0 [request .nonMaskable 0 0]).nmiPending = true ∧ HostMove.setVectorRegister 0xAB ≠ .reset ∧
    (∀ r, HostMove.setVectorRegister 0xAB ≠ .request r) ∧
    (∃ t, (HostMove.writeReg .pc 0x0100).apply haltedState = some t) ∧ haltedState.halted = true :=
  ⟨⟨_, rfl⟩, rfl, by decide, fun r h => (by cases h), ⟨_, rfl⟩, rfl⟩

end Sys2Proof.Tests
end

section
/-!
PROOFS. Memory (20_memory): a byte write inside the RAM window and outside it.
-/

namespace Sys2Proof.Proofs.Memory

open Sys2Proof.Machine

/-- R63: a write outside the RAM window leaves the whole state as it was. -/
theorem writeByte_of_not_inRam (s : State) (x : Word) (v : Byte) (h : ¬ s.config.inRam x = true) :
    s.writeByte x v = s := by
  rw [writeByte_eq, writeByte_mem, if_neg h]
  rfl

/-- R62, R63: a byte written inside the RAM window is read back. -/
theorem readByte_writeByte_same (s : State) (x : Word) (v : Byte) (h : s.config.inRam x = true) :
    (s.writeByte x v).readByte x = v := by
  rw [readByte_writeByte, if_pos ⟨rfl, h⟩]

/-- R62, R63: inside the window or outside it, a write leaves every other byte as it was. -/
theorem readByte_writeByte_of_ne (s : State) (x y : Word) (v : Byte) (h : y ≠ x) :
    (s.writeByte x v).readByte y = s.readByte y := by
  rw [readByte_writeByte, if_neg (fun hc => h hc.1)]

/-- Settles O38: the window's bounds are `Config.inRam`; inside it the three clauses are the read-back, the other bytes and
the frame of a byte write, outside it the write is dropped. -/
theorem writesLandOnlyInRamWindow : Obligations.WritesLandOnlyInRamWindow := by
  intro s addr v
  rw [← Config.inRam_iff]
  constructor
  · intro hin
    exact ⟨readByte_writeByte_same s addr v hin, fun x hx => readByte_writeByte_of_ne s addr x v hx,
      writeByte_eq s addr v⟩
  · exact writeByte_of_not_inRam s addr v

end Sys2Proof.Proofs.Memory
end

section
/-!
PROOFS. Encoding (30_encoding): what the condition codes read.
-/

namespace Sys2Proof.Proofs.Encoding

open Sys2Proof.Machine

/-- Settles O15: each branch of `condHolds` reads one flag, or its negation, and the two flags are bits 6 and 0 of F; so
each of the four clauses is one branch computed. -/
theorem conditionsReadZeroAndCarry : Obligations.ConditionsReadZeroAndCarry := by
  intro f
  exact ⟨rfl, rfl, rfl, rfl⟩

end Sys2Proof.Proofs.Encoding
end

section
/-!
PROOFS. Engine step (40_engine_step): what HALT, NOP and a halted step do.
-/

namespace Sys2Proof.Proofs.EngineStep

open Sys2Proof.Machine

/-- R242: HALT enters the Halted state at its own cost; PC is among the fields it leaves. -/
theorem exec_halt (s : State) : exec .halt s = .next ((s.setHalted true).addCycles s.config.cyc.halt) := rfl

/-- R130: NOP adds its cost. -/
theorem exec_nop (s : State) : exec .nop s = .next (s.addCycles s.config.cyc.nop) := rfl

/-- Settles O26: the step is `haltIdle` after `BeforeInstruction`, whose two writes are the sample point and the delay. -/
theorem haltedStepIdles : Obligations.HaltedStepIdles := by
  intro s hfault hquiet hhalted
  rw [step_halted s hfault hquiet hhalted, beforeInstruction_eq]
  rfl

/-- Settles O22: both instructions by their meanings; the clause on halted steps reads three fields of the idle step's
next state, which O26 gives whole. -/
theorem haltAndNop : Obligations.HaltAndNop := by
  intro s
  refine ⟨rfl, rfl, exec_halt s, exec_nop s, fun hfault hquiet hhalted => ?_⟩
  exact ⟨_, haltedStepIdles s hfault hquiet hhalted, hhalted, rfl, rfl⟩

end Sys2Proof.Proofs.EngineStep
end

section
/-!
PROOFS. Loads (41_loads): what a write of one register, of a pair or of SP leaves, and the four load forms made of it.
-/

namespace Sys2Proof.Proofs.Loads

open Sys2Proof.Machine

/-! ## The rules of a pair write and of the cost, beside `get8_set8_same` and `get8_set8_other` -/

/-- R8: a pair written as two halves reads back as the word. -/
@[simp] theorem getDD_setDD_same (s : State) (dd : RegDD) (v : Word) : (s.setDD dd v).getDD dd = v := by
  cases dd
  case sp => rfl
  all_goals exact wordOf_hiByte_loByte v

/-- R95: the three pairs and SP share no register. -/
theorem getDD_setDD_other (s : State) (dd q : RegDD) (v : Word) (h : q ≠ dd) :
    (s.setDD dd v).getDD q = s.getDD q := by
  cases dd <;> cases q <;> first | rfl | exact absurd rfl h

@[simp] theorem get8_addCycles (s : State) (n : Nat) (q : Reg8) : (s.addCycles n).get8 q = s.get8 q := rfl

@[simp] theorem getDD_addCycles (s : State) (n : Nat) (q : RegDD) : (s.addCycles n).getDD q = s.getDD q := rfl

/-! ## The frame of an instruction that computes in registers -/

/-- Two updates inside the frame, one after the other, stay inside it. -/
theorem onlyRegisters_trans {s t u : State} (hst : s.onlyRegisters t) (htu : t.onlyRegisters u) :
    s.onlyRegisters u :=
  Eq.trans htu (by rw [hst])

theorem onlyRegisters_set8 (s : State) (r : Reg8) (v : Byte) : s.onlyRegisters (s.set8 r v) := by
  cases r <;> rfl

theorem onlyRegisters_setDD (s : State) (dd : RegDD) (v : Word) : s.onlyRegisters (s.setDD dd v) := by
  cases dd <;> rfl

theorem onlyRegisters_addCycles (s : State) (n : Nat) : s.onlyRegisters (s.addCycles n) := rfl

/-! ## A register, or a pair, written at a cost -/

/-- R140: one 8-bit register is written and the cost added; every other register, F and SP stay. -/
theorem set8_addCycles_effect (s : State) (r : Reg8) (v : Byte) (n : Nat) :
    ((s.set8 r v).addCycles n).get8 r = v ∧
    (∀ q, q ≠ r → ((s.set8 r v).addCycles n).get8 q = s.get8 q) ∧
    ((s.set8 r v).addCycles n).f = s.f ∧ ((s.set8 r v).addCycles n).sp = s.sp ∧
    ((s.set8 r v).addCycles n).cycles = s.cycles + BitVec.ofNat 64 n ∧
    s.onlyRegisters ((s.set8 r v).addCycles n) := by
  have frame := onlyRegisters_trans (onlyRegisters_set8 s r v) (onlyRegisters_addCycles _ n)
  exact ⟨by simp, fun q hq => by simp [get8_set8_other s r q v hq], by simp, by simp, by simp, frame⟩

/-- R140: one pair or SP is written and the cost added; the other three, A and F stay. -/
theorem setDD_addCycles_effect (s : State) (dd : RegDD) (v : Word) (n : Nat) :
    ((s.setDD dd v).addCycles n).getDD dd = v ∧
    (∀ q, q ≠ dd → ((s.setDD dd v).addCycles n).getDD q = s.getDD q) ∧
    ((s.setDD dd v).addCycles n).a = s.a ∧ ((s.setDD dd v).addCycles n).f = s.f ∧
    ((s.setDD dd v).addCycles n).cycles = s.cycles + BitVec.ofNat 64 n ∧
    s.onlyRegisters ((s.setDD dd v).addCycles n) := by
  have frame := onlyRegisters_trans (onlyRegisters_setDD s dd v) (onlyRegisters_addCycles _ n)
  exact ⟨by simp, fun q hq => by simp [getDD_setDD_other s dd q v hq], by simp, by simp, by simp, frame⟩

/-- R144: SP takes H:L, at its own cost. -/
theorem exec_ld_SP_HL (s : State) :
    exec .ld_SP_HL s = .next ((s.setSP (s.getDD .hl)).addCycles s.config.cyc.ldSPHL) := rfl

/-! ## The encodings -/

/-- R100: `01 y z`. -/
theorem encode_ldRR (r r2 : Reg8) : encode (.ldRR r r2) = [0x40 ||| (r.code <<< 3) ||| r2.code] := by
  cases r <;> cases r2 <;> rfl

/-- R100: `00 y 110`, then the immediate. -/
theorem encode_ldRN (r : Reg8) (n : Byte) : encode (.ldRN r n) = [0x06 ||| (r.code <<< 3), n] := by
  cases r <;> rfl

/-- R100: `00 p 0001`, then the word, low byte first. -/
theorem encode_ldDDNN (dd : RegDD) (nn : Word) :
    encode (.ldDDNN dd nn) = [0x01 ||| (dd.code <<< 4), nn.extractLsb' 0 8, nn.extractLsb' 8 8] := by
  cases dd <;> rfl

/-! ## The obligations -/

/-- Settles O1: for all 49 forms the meaning is `loadReg`, a register write at a cost, whose value is read before the
write; so r = r' needs no case of its own. -/
theorem loadRegisterFromRegister : Obligations.LoadRegisterFromRegister := by
  intro r r2 s
  exact ⟨encode_ldRR r r2, _, exec_ldRR r r2 s, set8_addCycles_effect s r (s.get8 r2) s.config.cyc.ldRR⟩

/-- Settles O2: the meaning is `loadImm8`, the same register write with the immediate as its value. -/
theorem loadRegisterImmediate : Obligations.LoadRegisterImmediate := by
  intro r n s
  exact ⟨encode_ldRN r n, _, exec_ldRN r n s, set8_addCycles_effect s r n s.config.cyc.ldRN⟩

/-- Settles O3: the meaning is `loadImm16`, a pair write at a cost. -/
theorem loadPairImmediate : Obligations.LoadPairImmediate := by
  intro dd nn s
  exact ⟨encode_ldDDNN dd nn, _, exec_ldDDNN dd nn s, setDD_addCycles_effect s dd nn s.config.cyc.ldDDNN⟩

/-- Settles O4: the SP write at its cost is the record update of these two fields, and `getDD .hl` is H:L. -/
theorem loadStackPointerFromHL : Obligations.LoadStackPointerFromHL := by
  intro s
  exact ⟨rfl, exec_ld_SP_HL s⟩

end Sys2Proof.Proofs.Loads
end

section
/-!
PROOFS. 8-bit arithmetic and logic (42_arith8): A and the flags after an operation, its result as a number, and the
eight operations in both forms.
-/

namespace Sys2Proof.Proofs.Arith8

open Sys2Proof.Machine

/-! ## An 8-bit result stored in A and the flags -/

/-- R150: the state after a result has been written to A and the flags at a cost. -/
def withResult (s : State) (r : AluResult 8) (cost : Nat) : State :=
  ((s.setF (writeZC s.f r.zero r.carry)).set8 .a r.res).addCycles cost

/-- R150: A holds the result, ZF and CF are the result's, and nothing else but the cost changed. -/
theorem withResult_effect (s : State) (r : AluResult 8) (cost : Nat) :
    (withResult s r cost).a = r.res ∧ flagsWritten s.f (withResult s r cost).f r.zero r.carry ∧
    withResult s r cost =
      { s with
        a := (withResult s r cost).a, f := (withResult s r cost).f, cycles := s.cycles + BitVec.ofNat 64 cost } :=
  ⟨rfl, writeZC_bits s.f r.zero r.carry, rfl⟩

/-- R150: every operation but CP stores its result. -/
theorem aluApply_addCycles_of_ne_cp {op : AluOp} (hop : op ≠ .cp) (x : Byte) (s : State) (cost : Nat) :
    (aluApply op x s).addCycles cost = withResult s (aluCompute op s.a x (flagC s.f)) cost := by
  cases op
  case cp => exact absurd rfl hop
  all_goals rfl

/-- R151 to R163, register forms. -/
theorem exec_aluR_of_ne_cp (op : AluOp) (hop : op ≠ .cp) (r : Reg8) (s : State) :
    exec (.aluR op r) s = .next (withResult s (aluCompute op s.a (s.get8 r) (flagC s.f)) s.config.cyc.aluR) := by
  rw [exec_aluR, aluReg, aluApply_addCycles_of_ne_cp hop]

/-- R152 to R164, immediate forms. -/
theorem exec_aluN_of_ne_cp (op : AluOp) (hop : op ≠ .cp) (n : Byte) (s : State) :
    exec (.aluN op n) s = .next (withResult s (aluCompute op s.a n (flagC s.f)) s.config.cyc.aluN) := by
  rw [exec_aluN, aluImm, aluApply_addCycles_of_ne_cp hop]

/-! ## The encodings -/

/-- R100: `10 y z`. -/
theorem encode_aluR (op : AluOp) (r : Reg8) : encode (.aluR op r) = [0x80 ||| (op.code <<< 3) ||| r.code] := by
  cases op <;> cases r <;> rfl

/-- R100: `11 y 110`, then the immediate. -/
theorem encode_aluN (op : AluOp) (n : Byte) : encode (.aluN op n) = [0xC6 ||| (op.code <<< 3), n] := by
  cases op <;> rfl

/-! ## The difference as a number -/

/-- R150: the result and the flags of `sub8` in terms of the exact difference. -/
theorem sub8_exact (x y : Byte) (c : Bool) :
    let diff : Int := (x.toNat : Int) - (y.toNat : Int) - (if c then 1 else 0)
    ((sub8 x y c).res.toNat : Int) = diff % 256 ∧ (sub8 x y c).zero = decide (diff % 256 = 0) ∧
    (sub8 x y c).carry = decide (diff < 0) := by
  have hres := subWith_res 8 x y c
  have hzero := subWith_zero 8 x y c
  cases c <;> exact ⟨hres, hzero, rfl⟩

/-- R165: without a borrow in, the difference is zero exactly when the operands are equal. -/
theorem sub8_false_zero (x y : Byte) : (sub8 x y false).zero = decide (x = y) := by
  obtain ⟨-, hzero, -⟩ := sub8_exact x y false
  simp only [hzero, ← BitVec.toNat_inj, decide_eq_decide, Bool.false_eq_true, if_false]
  omega

/-- R165: without a borrow in, the difference borrows exactly when the first operand is below the second. -/
theorem sub8_false_carry (x y : Byte) : (sub8 x y false).carry = decide (x.toNat < y.toNat) := by
  obtain ⟨-, -, hcarry⟩ := sub8_exact x y false
  simp [hcarry]

/-! ## What each kind of result says of A and the flags -/

section
variable {i : Instr} {s : State} {x : Byte} {cost : Nat}

/-- R151, R153: the sum is narrowed to A, and the flags are tests of the exact sum. -/
theorem runs_add8 {c : Bool} (h : exec i s = .next (withResult s (add8 s.a x c) cost)) :
    let sum := s.a.toNat + x.toNat + (if c then 1 else 0)
    ∃ t, exec i s = .next t ∧ t.a = BitVec.ofNat 8 sum ∧
      flagsWritten s.f t.f (decide (sum % 256 = 0)) (decide (256 ≤ sum)) ∧
      t = { s with a := t.a, f := t.f, cycles := s.cycles + BitVec.ofNat 64 cost } := by
  obtain ⟨ha, hf, ht⟩ := withResult_effect s (add8 s.a x c) cost
  rw [add8, addWith_zero] at hf
  exact ⟨_, h, ha, hf, ht⟩

/-- R155, R157: A is the exact difference modulo 256, and the flags are tests of the exact difference. -/
theorem runs_sub8 {c : Bool} (h : exec i s = .next (withResult s (sub8 s.a x c) cost)) :
    let diff : Int := (s.a.toNat : Int) - (x.toNat : Int) - (if c then 1 else 0)
    ∃ t, exec i s = .next t ∧ (t.a.toNat : Int) = diff % 256 ∧
      flagsWritten s.f t.f (decide (diff % 256 = 0)) (decide (diff < 0)) ∧
      t = { s with a := t.a, f := t.f, cycles := s.cycles + BitVec.ofNat 64 cost } := by
  obtain ⟨ha, hf, ht⟩ := withResult_effect s (sub8 s.a x c) cost
  obtain ⟨hres, hzero, hcarry⟩ := sub8_exact s.a x c
  rw [← ha] at hres
  rw [hzero, hcarry] at hf
  exact ⟨_, h, hres, hf, ht⟩

/-- R159, R161, R163: the result is A, Zero is its test, and Carry is cleared. -/
theorem runs_bitwise {res : Byte} (h : exec i s = .next (withResult s ⟨res, false, res == 0⟩ cost)) :
    ∃ t, exec i s = .next t ∧ t.a = res ∧ flagsWritten s.f t.f (decide (res = 0)) false ∧
      t = { s with a := t.a, f := t.f, cycles := s.cycles + BitVec.ofNat 64 cost } := by
  obtain ⟨ha, hf, ht⟩ := withResult_effect s ⟨res, false, res == 0⟩ cost
  exact ⟨_, h, ha, beq_eq_decide res 0 ▸ hf, ht⟩

/-- R165: CP writes the flags of the difference, and A is among what it leaves. -/
theorem runs_cp (h : exec i s = .next ((aluApply .cp x s).addCycles cost)) :
    ∃ t, exec i s = .next t ∧ flagsWritten s.f t.f (decide (s.a = x)) (decide (s.a.toNat < x.toNat)) ∧
      t = { s with f := t.f, cycles := s.cycles + BitVec.ofNat 64 cost } := by
  have hf := writeZC_bits s.f (sub8 s.a x false).zero (sub8 s.a x false).carry
  rw [← sub8_false_zero, ← sub8_false_carry]
  exact ⟨_, h, hf, rfl⟩

end

/-! ## The obligations -/

/-- Settles O5: ADD and ADC are one sum, ADD with carry in 0 and ADC with the carry flag. -/
theorem addAndAddWithCarryToA : Obligations.AddAndAddWithCarryToA := by
  intro s
  refine ⟨fun r => ⟨encode_aluR .add r, ?_, encode_aluR .adc r, ?_⟩,
    fun n => ⟨encode_aluN .add n, ?_, encode_aluN .adc n, ?_⟩⟩
  · exact runs_add8 (exec_aluR_of_ne_cp .add nofun r s)
  · exact runs_add8 (exec_aluR_of_ne_cp .adc nofun r s)
  · exact runs_add8 (exec_aluN_of_ne_cp .add nofun n s)
  · exact runs_add8 (exec_aluN_of_ne_cp .adc nofun n s)

/-- Settles O6: SUB and SBC are one difference, SUB with borrow in 0 and SBC with the carry flag. -/
theorem subtractAndSubtractWithCarryFromA : Obligations.SubtractAndSubtractWithCarryFromA := by
  intro s
  refine ⟨fun r => ⟨encode_aluR .sub r, ?_, encode_aluR .sbc r, ?_⟩,
    fun n => ⟨encode_aluN .sub n, ?_, encode_aluN .sbc n, ?_⟩⟩
  · exact runs_sub8 (exec_aluR_of_ne_cp .sub nofun r s)
  · exact runs_sub8 (exec_aluR_of_ne_cp .sbc nofun r s)
  · exact runs_sub8 (exec_aluN_of_ne_cp .sub nofun n s)
  · exact runs_sub8 (exec_aluN_of_ne_cp .sbc nofun n s)

/-- Settles O7: CP computes the difference of SUB and keeps only its two flags. -/
theorem compareLeavesAAndOrdersFlags : Obligations.CompareLeavesAAndOrdersFlags := by
  intro s
  exact ⟨fun r => ⟨encode_aluR .cp r, runs_cp (exec_aluR .cp r s)⟩,
    fun n => ⟨encode_aluN .cp n, runs_cp (exec_aluN .cp n s)⟩⟩

/-- Settles O8: each of the three stores its bitwise result, with the carry of that result false. -/
theorem logicalOperationsClearCarry : Obligations.LogicalOperationsClearCarry := by
  intro s
  refine ⟨fun r => ⟨encode_aluR .and r, ?_, encode_aluR .xor r, ?_, encode_aluR .or r, ?_⟩,
    fun n => ⟨encode_aluN .and n, ?_, encode_aluN .xor n, ?_, encode_aluN .or n, ?_⟩⟩
  · exact runs_bitwise (exec_aluR_of_ne_cp .and nofun r s)
  · exact runs_bitwise (exec_aluR_of_ne_cp .xor nofun r s)
  · exact runs_bitwise (exec_aluR_of_ne_cp .or nofun r s)
  · exact runs_bitwise (exec_aluN_of_ne_cp .and nofun n s)
  · exact runs_bitwise (exec_aluN_of_ne_cp .xor nofun n s)
  · exact runs_bitwise (exec_aluN_of_ne_cp .or nofun n s)

end Sys2Proof.Proofs.Arith8
end

section
/-!
PROOFS. 16-bit arithmetic (43_arith16): HL and F after an operation, the flags as tests of the exact result, and the
three operations over the four source pairs.
-/

namespace Sys2Proof.Proofs.Arith16

open Sys2Proof.Machine

/-! ## A 16-bit result stored in HL and the flags -/

/-- R180: the state after a result has been written to HL and a new F to the flags, at a cost. -/
def withHL (s : State) (res : Word) (f : Byte) (cost : Nat) : State :=
  ((s.setDD .hl res).setF f).addCycles cost

/-- R180: an instruction that ends in such a state leaves the result in H:L and the flags it was given, and changes
nothing else but the cost. -/
theorem runs_withHL {i : Instr} {s : State} {res : Word} {f : Byte} {cost : Nat} {z c : Bool}
    (h : exec i s = .next (withHL s res f cost)) (hf : flagsWritten s.f f z c) :
    ∃ t, exec i s = .next t ∧ t.h ++ t.l = res ∧ flagsWritten s.f t.f z c ∧
      t = { s with h := t.h, l := t.l, f := t.f, cycles := s.cycles + BitVec.ofNat 64 cost } :=
  ⟨_, h, wordOf_hiByte_loByte res, hf, rfl⟩

/-- R181: Carry alone is written, and no carry comes in. -/
theorem exec_addHLSS_withHL (ss : RegDD) (s : State) :
    let r := add16 (s.getDD .hl) (s.getDD ss) false
    exec (.addHLSS ss) s = .next (withHL s r.res (writeC s.f r.carry) s.config.cyc.addHLSS) :=
  exec_addHLSS ss s

/-- R182: the carry flag comes in, and both flags are written. -/
theorem exec_adcHLSS_withHL (ss : RegDD) (s : State) :
    let r := add16 (s.getDD .hl) (s.getDD ss) (flagC s.f)
    exec (.adcHLSS ss) s = .next (withHL s r.res (writeZC s.f r.zero r.carry) s.config.cyc.adcHLSS) :=
  exec_adcHLSS ss s

/-- R183: the carry flag is the borrow in, and both flags are written. -/
theorem exec_sbcHLSS_withHL (ss : RegDD) (s : State) :
    let r := sub16 (s.getDD .hl) (s.getDD ss) (flagC s.f)
    exec (.sbcHLSS ss) s = .next (withHL s r.res (writeZC s.f r.zero r.carry) s.config.cyc.sbcHLSS) :=
  exec_sbcHLSS ss s

/-! ## The encodings -/

/-- R181: `00 pp1 001`. -/
theorem encode_addHLSS (ss : RegDD) : encode (.addHLSS ss) = [0x09 ||| (ss.code <<< 4)] := by
  cases ss <;> rfl

/-- R182: the prefix, then `01 pp1 010`. -/
theorem encode_adcHLSS (ss : RegDD) : encode (.adcHLSS ss) = [(0xED : Byte), 0x4A ||| (ss.code <<< 4)] := by
  cases ss <;> rfl

/-- R183: the prefix, then `01 pp0 010`. -/
theorem encode_sbcHLSS (ss : RegDD) : encode (.sbcHLSS ss) = [(0xED : Byte), 0x42 ||| (ss.code <<< 4)] := by
  cases ss <;> rfl

/-! ## The flags of a whole result -/

/-- R180, R182: both flags written from `add16` are tests of the exact sum. -/
theorem flagsWritten_add16 (f : Byte) (x y : Word) (c : Bool) :
    let sum := x.toNat + y.toNat + bit c
    flagsWritten f (writeZC f (add16 x y c).zero (add16 x y c).carry)
      (decide (sum % 65536 = 0)) (decide (65536 ≤ sum)) := by
  have hzero := addWith_zero 16 x y c
  exact hzero ▸ writeZC_bits f (add16 x y c).zero (add16 x y c).carry

/-- R180, R183: both flags written from `sub16` are tests of the exact difference. -/
theorem flagsWritten_sub16 (f : Byte) (x y : Word) (c : Bool) :
    let diff : Int := (x.toNat : Int) - (y.toNat : Int) - (bit c : Int)
    flagsWritten f (writeZC f (sub16 x y c).zero (sub16 x y c).carry)
      (decide (diff % 65536 = 0)) (decide (diff < 0)) := by
  have hzero := subWith_zero 16 x y c
  exact hzero ▸ writeZC_bits f (sub16 x y c).zero (sub16 x y c).carry

/-! ## The obligations -/

/-- Settles O9: the sum has carry in 0, and only Carry is written, so Zero is the bit `writeC` leaves; the meaning reads
both operands before HL is written, so HL as its own source needs no case. -/
theorem addPairToHLKeepsZero : Obligations.AddPairToHLKeepsZero := by
  intro ss s
  have hflags := writeC_bits s.f (add16 (s.getDD .hl) (s.getDD ss) false).carry
  exact ⟨encode_addHLSS ss, runs_withHL (exec_addHLSS_withHL ss s) hflags⟩

/-- Settles O10: both take the carry flag in and write both flags of the whole result; what SBC leaves in HL is the exact
difference modulo 65536. -/
theorem adcAndSbcOfHL : Obligations.AdcAndSbcOfHL := by
  intro ss s
  have hadd := flagsWritten_add16 s.f (s.getDD .hl) (s.getDD ss) (flagC s.f)
  have hsub := flagsWritten_sub16 s.f (s.getDD .hl) (s.getDD ss) (flagC s.f)
  refine ⟨encode_adcHLSS ss, encode_sbcHLSS ss, ?_, ?_⟩
  · exact runs_withHL (exec_adcHLSS_withHL ss s) hadd
  · obtain ⟨t, ht, hHL, hflags, hframe⟩ := runs_withHL (exec_sbcHLSS_withHL ss s) hsub
    have hres := subWith_res 16 (s.getDD .hl) (s.getDD ss) (flagC s.f)
    exact ⟨t, ht, hHL ▸ hres, hflags, hframe⟩

end Sys2Proof.Proofs.Arith16
end

section
/-!
PROOFS. Increment and decrement (44_incdec): a register and the flags after a result, a pair after one, and the four
forms made of them.
-/

namespace Sys2Proof.Proofs.IncDec

open Sys2Proof.Machine
open Sys2Proof.Proofs.Loads (onlyRegisters_trans onlyRegisters_set8 setDD_addCycles_effect)

/-! ## An 8-bit result stored in a register and the Zero flag -/

@[simp] theorem get8_setF (s : State) (f : Byte) (q : Reg8) : (s.setF f).get8 q = s.get8 q := rfl

/-- R191, R192: the state after a result has been written to a register and its test to Zero, at a cost. -/
def withReg (s : State) (r : Reg8) (res : Byte) (cost : Nat) : State :=
  ((s.set8 r res).setF (writeZ s.f (res == 0))).addCycles cost

/-- R191: the result is one above the register. -/
theorem exec_incR_withReg (r : Reg8) (s : State) :
    exec (.incR r) s = .next (withReg s r (s.get8 r + 1) s.config.cyc.incR) :=
  exec_incR r s

/-- R192: the result is one below the register. -/
theorem exec_decR_withReg (r : Reg8) (s : State) :
    exec (.decR r) s = .next (withReg s r (s.get8 r - 1) s.config.cyc.decR) :=
  exec_decR r s

/-- R191, R192: an instruction that ends in such a state leaves the result in its register and its test in Zero; Carry,
every other register and SP stay. -/
theorem runs_withReg {i : Instr} {s : State} {r : Reg8} {res : Byte} {cost : Nat}
    (h : exec i s = .next (withReg s r res cost)) :
    ∃ t, exec i s = .next t ∧ t.get8 r = res ∧ (∀ q, q ≠ r → t.get8 q = s.get8 q) ∧
      flagsWritten s.f t.f (decide (res = 0)) (s.f.getLsbD 0) ∧
      t.sp = s.sp ∧ t.cycles = s.cycles + BitVec.ofNat 64 cost ∧ s.onlyRegisters t := by
  have same : (withReg s r res cost).get8 r = res := by simp [withReg]
  have other (q : Reg8) (hq : q ≠ r) : (withReg s r res cost).get8 q = s.get8 q := by
    simp [withReg, get8_set8_other s r q res hq]
  have flags : flagsWritten s.f (withReg s r res cost).f (decide (res = 0)) (s.f.getLsbD 0) :=
    beq_eq_decide res 0 ▸ writeZ_bits s.f (res == 0)
  have frame : s.onlyRegisters (withReg s r res cost) := onlyRegisters_trans (onlyRegisters_set8 s r res) rfl
  exact ⟨_, h, same, other, flags, by simp [withReg], by simp [withReg], frame⟩

/-! ## A 16-bit result stored in a pair or SP -/

/-- R193: the pair write of a load, with the value one above the pair. -/
theorem exec_incSS_setDD (ss : RegDD) (s : State) :
    exec (.incSS ss) s = .next ((s.setDD ss (s.getDD ss + 1)).addCycles s.config.cyc.incSS) :=
  exec_incSS ss s

/-- R194: the pair write of a load, with the value one below the pair. -/
theorem exec_decSS_setDD (ss : RegDD) (s : State) :
    exec (.decSS ss) s = .next ((s.setDD ss (s.getDD ss - 1)).addCycles s.config.cyc.decSS) :=
  exec_decSS ss s

/-! ## The encodings -/

/-- R191: `00 y 100`. -/
theorem encode_incR (r : Reg8) : encode (.incR r) = [0x04 ||| (r.code <<< 3)] := by
  cases r <;> rfl

/-- R192: `00 y 101`. -/
theorem encode_decR (r : Reg8) : encode (.decR r) = [0x05 ||| (r.code <<< 3)] := by
  cases r <;> rfl

/-- R193: `00 pp0 011`. -/
theorem encode_incSS (ss : RegDD) : encode (.incSS ss) = [0x03 ||| (ss.code <<< 4)] := by
  cases ss <;> rfl

/-- R194: `00 pp1 011`. -/
theorem encode_decSS (ss : RegDD) : encode (.decSS ss) = [0x0B ||| (ss.code <<< 4)] := by
  cases ss <;> rfl

/-! ## The obligations -/

/-- Settles O11: both directions store their result by one register write that also writes Zero, and `writeZ` leaves
Carry. -/
theorem incrementAndDecrementRegister : Obligations.IncrementAndDecrementRegister := by
  intro r s
  exact ⟨encode_incR r, runs_withReg (exec_incR_withReg r s), encode_decR r, runs_withReg (exec_decR_withReg r s)⟩

/-- Settles O12: both directions are a pair write at a cost, whose frame holds A and F; the pair is read before the
write. -/
theorem incrementAndDecrementPair : Obligations.IncrementAndDecrementPair := by
  intro ss s
  have inc := setDD_addCycles_effect s ss (s.getDD ss + 1) s.config.cyc.incSS
  have dec := setDD_addCycles_effect s ss (s.getDD ss - 1) s.config.cyc.decSS
  exact ⟨encode_incSS ss, ⟨_, exec_incSS_setDD ss s, inc⟩, encode_decSS ss, ⟨_, exec_decSS_setDD ss s, dec⟩⟩

end Sys2Proof.Proofs.IncDec
end

section
/-!
PROOFS. Jumps (45_jumps): the state a jump leaves, and which target and which cost the condition selects.
-/

namespace Sys2Proof.Proofs.Jumps

open Sys2Proof.Machine

/-! ## The state a jump leaves -/

/-- R200: PC written at a cost, as one record update. -/
theorem setPC_addCycles (s : State) (target : Word) (cost : Nat) :
    (s.setPC target).addCycles cost = { s with pc := target, cycles := s.cycles + BitVec.ofNat 64 cost } := rfl

/-- R7: the sign extension is the word of the signed value. -/
theorem sext16_eq_ofInt (e : Byte) : sext16 e = BitVec.ofInt 16 e.toInt := rfl

/-- R203: a branch at a cost; the displacement is signed and counts from the PC after the instruction. -/
theorem branchBy_addCycles (e : Byte) (s : State) (cost : Nat) :
    (branchBy e s).addCycles cost =
      { s with pc := s.pc + BitVec.ofInt 16 e.toInt, cycles := s.cycles + BitVec.ofNat 64 cost } := by
  rw [← sext16_eq_ofInt]
  exact setPC_addCycles s (s.pc + sext16 e) cost

/-! ## What the unconditional jumps mean -/

/-- R201: JP nn is an absolute jump. -/
theorem exec_jp_nn (nn : Word) (s : State) : exec (.jp_nn nn) s = jumpAbs nn s := rfl

/-- R203: JR e is a branch at one cost. -/
theorem exec_jr_e (e : Byte) (s : State) : exec (.jr_e e) s = jumpRel e s := rfl

/-! ## What a condition selects -/

/-- R202: the condition selects the target or the PC after the operand bytes, and the cost is one for both. -/
theorem jumpAbsIf_eq (cc : Cond) (nn : Word) (s : State) :
    jumpAbsIf cc nn s =
      .next
        { s with
          pc := if condHolds cc s.f then nn else s.pc
          cycles := s.cycles + BitVec.ofNat 64 s.config.cyc.jpCC } := by
  unfold jumpAbsIf
  split
  case isTrue taken => rw [setPC_addCycles]
  case isFalse notTaken => rfl

/-- R204: a branch whose condition holds is taken, at the cost of a taken branch. -/
theorem jumpRelIf_taken {cc : Cond} {s : State} (h : condHolds cc s.f = true) (e : Byte) :
    jumpRelIf cc e s = .next ((branchBy e s).addCycles s.config.cyc.jrCCTaken) :=
  if_pos h

/-- R204: a branch whose condition does not hold adds its own cost and leaves PC. -/
theorem jumpRelIf_notTaken {cc : Cond} {s : State} (h : condHolds cc s.f = false) (e : Byte) :
    jumpRelIf cc e s = .next (s.addCycles s.config.cyc.jrCCNot) :=
  if_neg (Bool.eq_false_iff.mp h)

/-! ## The encodings -/

/-- R100: `11 0cc 010`, then the word, low byte first. -/
theorem encode_jpCC (cc : Cond) (nn : Word) :
    encode (.jpCC cc nn) = [0xC2 ||| (cc.code <<< 3), nn.extractLsb' 0 8, nn.extractLsb' 8 8] := by
  cases cc <;> rfl

/-- R100: `00 1cc 000`, then the displacement. -/
theorem encode_jrCC (cc : Cond) (e : Byte) : encode (.jrCC cc e) = [0x20 ||| (cc.code <<< 3), e] := by
  cases cc <;> rfl

/-! ## The obligations -/

/-- Settles O13: the four conditional forms share `jumpAbsIf`, where only PC depends on the condition. -/
theorem absoluteJumps : Obligations.AbsoluteJumps := by
  intro nn s
  have always : exec (.jp_nn nn) s = .next ((s.setPC nn).addCycles s.config.cyc.jp) := exec_jp_nn nn s
  rw [setPC_addCycles] at always
  refine ⟨rfl, always, fun cc => ⟨encode_jpCC cc nn, ?_⟩⟩
  rw [exec_jpCC, jumpAbsIf_eq]

/-- Settles O14: a taken branch and JR e are `branchBy` at their own costs, and a branch not taken only adds its cost. -/
theorem relativeJumps : Obligations.RelativeJumps := by
  intro e s
  have always : exec (.jr_e e) s = .next ((branchBy e s).addCycles s.config.cyc.jr) := exec_jr_e e s
  rw [branchBy_addCycles] at always
  refine ⟨rfl, always, fun cc => ⟨encode_jrCC cc e, fun taken => ?_, fun notTaken => ?_⟩⟩
  · rw [exec_jrCC, jumpRelIf_taken taken, branchBy_addCycles]
  · rw [exec_jrCC, jumpRelIf_notTaken notTaken]
    rfl

end Sys2Proof.Proofs.Jumps
end

section
/-!
PROOFS. Stack (46_stack): a PUSH or POP pair after a write, the state a push leaves and the state a pop leaves.
-/

namespace Sys2Proof.Proofs.Stack

open Sys2Proof.Machine
open Sys2Proof.Proofs.Loads (onlyRegisters_trans)

/-! ## The rules of a PUSH or POP pair -/

/-- R8: a pair written as two halves reads back as the word; for AF that is A and all eight bits of F. -/
@[simp] theorem getQQ_setQQ_same (s : State) (qq : RegQQ) (v : Word) : (s.setQQ qq v).getQQ qq = v := by
  cases qq <;> exact wordOf_hiByte_loByte v

/-- R96: the four pairs share no register. -/
theorem getQQ_setQQ_other (s : State) (qq q : RegQQ) (v : Word) (h : q ≠ qq) :
    (s.setQQ qq v).getQQ q = s.getQQ q := by
  cases qq <;> cases q
  case bc.bc | de.de | hl.hl | af.af => exact absurd rfl h
  all_goals rfl

@[simp] theorem getQQ_addCycles (s : State) (n : Nat) (q : RegQQ) : (s.addCycles n).getQQ q = s.getQQ q := rfl

@[simp] theorem getQQ_setSP (s : State) (v : Word) (q : RegQQ) : (s.setSP v).getQQ q = s.getQQ q := rfl

theorem onlyRegisters_setQQ (s : State) (qq : RegQQ) (v : Word) : s.onlyRegisters (s.setQQ qq v) := by
  cases qq <;> rfl

/-! ## The state a push leaves -/

/-- R216: the cost touches no byte of memory. -/
theorem pushed_addCycles (s t : State) (v : Word) (n : Nat) : s.pushed (t.addCycles n) v ↔ s.pushed t v := Iff.rfl

/-- R216: `Push16` at a cost, as one record update whose memory `pushed` describes. -/
theorem push16_addCycles (s : State) (v : Word) (n : Nat) :
    (s.push16 v).addCycles n =
      { s with sp := s.sp - 2, mem := (s.push16 v).mem, cycles := s.cycles + BitVec.ofNat 64 n } :=
  congrArg (State.addCycles · n) (push16_eq s v)

/-! ## The state a pop leaves -/

/-- R217, R219: the state after a word has been popped into a pair, at a cost. -/
def withPopped (s : State) (qq : RegQQ) (v : Word) (cost : Nat) : State :=
  ((s.setSP (s.sp + 2)).setQQ qq v).addCycles cost

/-- R219: the word popped has the byte at SP + 1 as its high half and the byte at SP as its low half. -/
theorem exec_pop_withPopped (qq : RegQQ) (s : State) :
    exec (.pop qq) s = .next (withPopped s qq (s.readByte (s.sp + 1) ++ s.readByte s.sp) s.config.cyc.pop) := by
  rw [exec_pop, popPair, pop16_eq]
  rfl

/-- R219: the pair holds the word, SP is two higher and the cost is added; the other pairs and memory stay. -/
theorem withPopped_effect (s : State) (qq : RegQQ) (v : Word) (cost : Nat) :
    (withPopped s qq v cost).getQQ qq = v ∧ (∀ q, q ≠ qq → (withPopped s qq v cost).getQQ q = s.getQQ q) ∧
      (withPopped s qq v cost).sp = s.sp + 2 ∧
      (withPopped s qq v cost).cycles = s.cycles + BitVec.ofNat 64 cost ∧
      s.onlyRegisters (withPopped s qq v cost) := by
  have other (q : RegQQ) (hq : q ≠ qq) : (withPopped s qq v cost).getQQ q = s.getQQ q := by
    simp [withPopped, getQQ_setQQ_other _ qq q v hq]
  have raised : s.onlyRegisters (s.setSP (s.sp + 2)) := rfl
  have written := onlyRegisters_trans raised (onlyRegisters_setQQ _ qq v)
  have frame : s.onlyRegisters (withPopped s qq v cost) := onlyRegisters_trans written rfl
  exact ⟨by simp [withPopped], other, by simp [withPopped], by simp [withPopped], frame⟩

/-! ## The encodings -/

/-- R218: `11 pp0 101`. -/
theorem encode_push (qq : RegQQ) : encode (.push qq) = [0xC5 ||| (qq.code <<< 4)] := by
  cases qq <;> rfl

/-- R219: `11 pp0 001`. -/
theorem encode_pop (qq : RegQQ) : encode (.pop qq) = [0xC1 ||| (qq.code <<< 4)] := by
  cases qq <;> rfl

/-! ## The obligations -/

/-- Settles O16: the meaning is `Push16` of the pair at a cost; the pair is read before SP moves. -/
theorem pushStoresPair : Obligations.PushStoresPair := by
  intro qq s
  have bytes := (pushed_addCycles s _ _ s.config.cyc.push).mpr (push16_pushed s (s.getQQ qq))
  exact ⟨encode_push qq, _, exec_push qq s, bytes, push16_addCycles s (s.getQQ qq) s.config.cyc.push⟩

/-- Settles O17: the meaning is a pair write of the word popped, with SP raised and the cost added. -/
theorem popLoadsPair : Obligations.PopLoadsPair := by
  intro qq s
  exact ⟨encode_pop qq, _, exec_pop_withPopped qq s, withPopped_effect s qq _ s.config.cyc.pop⟩

end Sys2Proof.Proofs.Stack
end

section
/-!
PROOFS. Interrupt control (47_intctl): each instruction is one controller operation at a cost; a return pops PC first.
-/

namespace Sys2Proof.Proofs.InterruptControl

open Sys2Proof.Machine

/-! ## What each instruction means -/

/-- R226: EI is `EnableInterrupts()` at its cost. -/
theorem exec_ei (s : State) : exec .ei s = .next ((enableInterrupts s).addCycles s.config.cyc.ei) := rfl

/-- R227: DI is `DisableInterrupts()` at its cost. -/
theorem exec_di (s : State) : exec .di s = .next ((disableInterrupts s).addCycles s.config.cyc.di) := rfl

/-- R228, R229, R230: the mode an IM form selects, as the controller stores it. -/
def selectedMode : IntModeNum → IntMode
  | .mode0 => .mode0
  | .mode1 => .mode1
  | .mode2 => .mode2

/-- R228, R229, R230: the three IM forms are `SetInterruptMode` of their mode, at one cost. -/
theorem exec_im (m : IntModeNum) (s : State) :
    exec (.im m) s = .next ((setInterruptMode (selectedMode m) s).addCycles s.config.cyc.im) := by
  cases m <;> rfl

/-- R231: RETI pops PC, then is `ReturnFromInterrupt()`, at its cost. -/
theorem exec_reti (s : State) :
    exec .reti s = .next ((returnFromInterrupt (popPC s)).addCycles s.config.cyc.reti) := rfl

/-- R259: the two return operations are one restoration. -/
theorem returnFromNonMaskableInterrupt_eq (s : State) : returnFromNonMaskableInterrupt s = returnFromInterrupt s := rfl

/-- R232, R259: RETN is RETI at its own cost. -/
theorem exec_retn (s : State) :
    exec .retn s = .next ((returnFromInterrupt (popPC s)).addCycles s.config.cyc.retn) := by
  rw [← returnFromNonMaskableInterrupt_eq]
  rfl

/-! ## The state each operation leaves, at a cost -/

/-- R251: both enable bits and the delay are set. -/
theorem enableInterrupts_addCycles (s : State) (cost : Nat) :
    (enableInterrupts s).addCycles cost =
      { s with iff1 := true, iff2 := true, eiDelay := 1, cycles := s.cycles + BitVec.ofNat 64 cost } := rfl

/-- R252: both enable bits and the delay are cleared. -/
theorem disableInterrupts_addCycles (s : State) (cost : Nat) :
    (disableInterrupts s).addCycles cost =
      { s with iff1 := false, iff2 := false, eiDelay := 0, cycles := s.cycles + BitVec.ofNat 64 cost } := rfl

/-- R255: the mode is stored. -/
theorem setInterruptMode_addCycles (m : IntMode) (s : State) (cost : Nat) :
    (setInterruptMode m s).addCycles cost =
      { s with mode := m, cycles := s.cycles + BitVec.ofNat 64 cost } := rfl

/-- R217, R259: PC is the word at SP, high byte at SP + 1, SP is two higher and `iff1` is `iff2`. -/
theorem returnFromInterrupt_popPC_addCycles (s : State) (cost : Nat) :
    (returnFromInterrupt (popPC s)).addCycles cost =
      { s with
        pc := s.readByte (s.sp + 1) ++ s.readByte s.sp
        sp := s.sp + 2
        iff1 := s.iff2
        cycles := s.cycles + BitVec.ofNat 64 cost } := by
  rw [popPC_eq]
  rfl

/-! ## The obligations -/

/-- Settles O18: each is one controller operation, whose three writes and the cost are the whole change. -/
theorem enableAndDisableInterrupts : Obligations.EnableAndDisableInterrupts := by
  intro s
  refine ⟨rfl, rfl, ?_, ?_⟩
  · rw [exec_ei, enableInterrupts_addCycles]
  · rw [exec_di, disableInterrupts_addCycles]

/-- Settles O19: the three forms are one instruction over the mode, so one run serves each of them. -/
theorem interruptModeInstructions : Obligations.InterruptModeInstructions := by
  intro s
  have runs (m : IntModeNum) :
      exec (.im m) s =
        .next { s with mode := selectedMode m, cycles := s.cycles + BitVec.ofNat 64 s.config.cyc.im } := by
    rw [exec_im, setInterruptMode_addCycles]
  exact ⟨rfl, runs .mode0, rfl, runs .mode1, rfl, runs .mode2⟩

/-- Settles O20: both are one restoration after the same pop, and differ in the cost alone. -/
theorem returnsPopAndRestoreEnable : Obligations.ReturnsPopAndRestoreEnable := by
  intro s
  have reti := exec_reti s
  have retn := exec_retn s
  rw [returnFromInterrupt_popPC_addCycles] at reti retn
  exact ⟨rfl, reti, rfl, retn⟩

end Sys2Proof.Proofs.InterruptControl
end

section
/-!
PROOFS. RST (48_rst_halt): a push of PC followed by a jump, and the opcode's target field as an address.
-/

namespace Sys2Proof.Proofs.Restart

open Sys2Proof.Machine
open Sys2Proof.Proofs.Stack (pushed_addCycles)

/-! ## The state a push and a jump leave -/

/-- R216: a jump touches no byte of memory. -/
theorem pushed_setPC (s t : State) (v target : Word) : s.pushed (t.setPC target) v ↔ s.pushed t v := Iff.rfl

/-- R216, R241: `Push16`, then a jump, at a cost, as one record update whose memory `pushed` describes. -/
theorem push16_setPC_addCycles (s : State) (v target : Word) (cost : Nat) :
    ((s.push16 v).setPC target).addCycles cost =
      { s with
        pc := target
        sp := s.sp - 2
        mem := (s.push16 v).mem
        cycles := s.cycles + BitVec.ofNat 64 cost } :=
  congrArg (fun t : State => (t.setPC target).addCycles cost) (push16_eq s v)

/-! ## The opcode and its target -/

/-- R241: `11 yyy 111`. -/
theorem encode_rst (p : RstTarget) : encode (.rst p) = [0xC7 ||| (p.code <<< 3)] := by
  cases p <;> rfl

/-- R241: the target is the opcode's `yyy` field in place, `op AND 0x38`. -/
theorem rstAddress_eq (p : RstTarget) :
    rstAddress p = BitVec.zeroExtend 16 (((0xC7 : Byte) ||| (p.code <<< 3)) &&& 0x38) := by
  cases p <;> rfl

/-! ## The obligation -/

/-- Settles O21: the meaning is `Push16` of the PC past the opcode, then a jump to the target field, at a cost. -/
theorem restartPushesAndJumps : Obligations.RestartPushesAndJumps := by
  intro p s
  have stored : s.pushed ((s.push16 s.pc).setPC (rstAddress p)) s.pc :=
    (pushed_setPC s _ _ _).mpr (push16_pushed s s.pc)
  have frame := push16_setPC_addCycles s s.pc (rstAddress p) s.config.cyc.rst
  refine ⟨encode_rst p, _, exec_rst p s, (pushed_addCycles s _ _ s.config.cyc.rst).mpr stored, ?_⟩
  rw [← rstAddress_eq]
  exact frame

end Sys2Proof.Proofs.Restart
end

section
/-!
PROOFS. Decoding (30_encoding): the decoder and the encoder are inverse to each other, which bytes have no decode
entry, and the forms the decode entries are made of.
-/

namespace Sys2Proof.Proofs.Decoding

open Sys2Proof.Machine

/-! ## The decoder inverts the encoder -/

/-- R92: the nine three-byte forms have their operand word put together again (`decode_nn`); every other encoding is
decoded by computing, its operand byte being taken as it is. -/
theorem decode_encode_append (i : Instr) (rest : List Byte) : decode (encode i ++ rest) = .ok i rest := by
  revert rest
  cases i
  case ld_BC_nn nn => exact Laws.RoundTrip.ld_BC_nn nn
  case ld_DE_nn nn => exact Laws.RoundTrip.ld_DE_nn nn
  case ld_HL_nn nn => exact Laws.RoundTrip.ld_HL_nn nn
  case ld_SP_nn nn => exact Laws.RoundTrip.ld_SP_nn nn
  case jp_nn nn => exact Laws.RoundTrip.jp_nn nn
  case jp_NZ_nn nn => exact Laws.RoundTrip.jp_NZ_nn nn
  case jp_Z_nn nn => exact Laws.RoundTrip.jp_Z_nn nn
  case jp_NC_nn nn => exact Laws.RoundTrip.jp_NC_nn nn
  case jp_C_nn nn => exact Laws.RoundTrip.jp_C_nn nn
  all_goals exact fun _ => rfl

/-! ## Every way the decoder can answer an instruction -/

/-- R92: the instruction an entry of the main page makes of the operand bytes of its format. -/
inductive Makes : MainEntry → List Byte → Instr → Prop
  | op (i : Instr) : Makes (.op i) [] i
  | opN (f : Byte → Instr) (n : Byte) : Makes (.opN f) [n] (f n)
  | opE (f : Byte → Instr) (e : Byte) : Makes (.opE f) [e] (f e)
  | opNN (f : Word → Instr) (lo hi : Byte) : Makes (.opNN f) [lo, hi] (f (wordOf hi lo))

/-- An instruction comes from the ED page, or from an entry of the main page and the operand bytes of its format. -/
theorem decode_ok_cases {bytes rest : List Byte} {i : Instr} (h : decode bytes = .ok i rest) :
    (∃ op2, bytes = [0xED, op2] ++ rest ∧ decodeEd op2 = some i) ∨
    (∃ op entry operands, bytes = op :: operands ++ rest ∧ decodeMain op = some entry ∧ Makes entry operands i) := by
  unfold decode at h
  split at h
  case h_1 => cases h
  case h_2 op tail =>
    split at h
    case isTrue hed =>
      subst hed
      split at h
      case h_1 => cases h
      case h_2 op2 tail' =>
        split at h
        case h_1 j hj => cases h; exact .inl ⟨op2, rfl, hj⟩
        case h_2 => cases h
    case isFalse =>
      right
      split at h
      case h_1 => cases h
      case h_2 j hj => cases h; exact ⟨op, _, [], rfl, hj, .op i⟩
      case h_3 f hf =>
        split at h
        case h_1 n _ => cases h; exact ⟨op, _, [n], rfl, hf, .opN f n⟩
        case h_2 => cases h
      case h_4 f hf =>
        split at h
        case h_1 e _ => cases h; exact ⟨op, _, [e], rfl, hf, .opE f e⟩
        case h_2 => cases h
      case h_5 f hf =>
        split at h
        case h_1 lo hi _ => cases h; exact ⟨op, _, [lo, hi], rfl, hf, .opNN f lo hi⟩
        case h_2 => cases h

/-- R101: the bytes an entry makes its instruction of are the instruction's encoding. -/
theorem encode_of_makes {op : Byte} {entry : MainEntry} {operands : List Byte} {i : Instr}
    (h : decodeMain op = some entry) (hm : Makes entry operands i) : encode i = op :: operands := by
  have agrees := decodeMain_sound h
  cases hm with
  | op => exact agrees
  | opN f n => exact agrees n
  | opE f e => exact agrees e
  | opNN f lo hi =>
    have hw := agrees (wordOf hi lo)
    rwa [loByte_wordOf, hiByte_wordOf] at hw

/-- The encoder inverts the decoder. -/
theorem eq_encode_append_of_decode {bytes rest : List Byte} {i : Instr} (h : decode bytes = .ok i rest) :
    bytes = encode i ++ rest := by
  obtain ⟨op2, rfl, hed⟩ | ⟨op, entry, operands, rfl, hmain, hmakes⟩ := decode_ok_cases h
  · rw [decodeEd_sound hed]
  · rw [encode_of_makes hmain hmakes]

/-- Settles O42: one way by the round trip of each instruction's bytes; the other way by the entry the decoder found,
whose bytes are those of the opcode map. -/
theorem decodeIsInverseOfEncode : Obligations.DecodeIsInverseOfEncode := by
  intro bytes i rest _
  constructor
  · exact eq_encode_append_of_decode
  · rintro rfl
    exact decode_encode_append i rest

/-! ## The bytes with no decode entry -/

/-- R104: the first byte is refused when it does not lead to the ED page and the main page has no entry for it. -/
theorem decode_eq_unimplementedMain_iff (op : Byte) (rest : List Byte) :
    decode (op :: rest) = .unimplementedMain op ↔ op ≠ 0xED ∧ decodeMain op = none := by
  constructor
  · intro h
    by_cases hed : op = 0xED
    · subst hed
      cases rest with
      | nil => cases h
      | cons op2 rest =>
        simp only [decode, if_true] at h
        split at h <;> cases h
    · refine ⟨hed, ?_⟩
      simp only [decode, if_neg hed] at h
      split at h
      case h_1 hnone => exact hnone
      case h_2 => cases h
      all_goals split at h <;> cases h
  · rintro ⟨hed, hnone⟩
    simp only [decode, if_neg hed, hnone]

/-- R104: the byte after 0xED is refused when the ED page has no entry for it. -/
theorem decode_eq_unimplementedEd_iff (op2 : Byte) (rest : List Byte) :
    decode (0xED :: op2 :: rest) = .unimplementedEd op2 ↔ decodeEd op2 = none := by
  simp only [decode, if_true]
  cases decodeEd op2 with
  | none => simp
  | some i => simp

/-- Settles O43: a byte is refused when its page has no entry for it; the 256 bytes of each page are then compared with
the spec's list. -/
theorem unsupportedBytesAreRejected : Obligations.UnsupportedBytesAreRejected := by
  refine ⟨fun op rest => ?_, fun op2 rest => ?_⟩
  · rw [decode_eq_unimplementedMain_iff, ← Option.isNone_iff_eq_none]
    revert op
    decide
  · rw [decode_eq_unimplementedEd_iff]
    revert op2
    decide

/-- Settles O44: each word is the encoding of its instruction, so it decodes to it. -/
theorem sampleWordsDecode : Obligations.SampleWordsDecode :=
  ⟨decode_encode_append .ld_A_B [], decode_encode_append (.ld_A_n 0x80) [],
    decode_encode_append (.ld_BC_nn 0x1234) [], decode_encode_append .adc_A_C [],
    decode_encode_append .sbc_HL_DE [], decode_encode_append .inc_B [],
    decode_encode_append (.jp_NZ_nn 0x2000) [], decode_encode_append (.jr_NZ_e 0xFB) [],
    decode_encode_append .push_AF [], decode_encode_append .reti [], decode_encode_append .rst_08h [],
    decode_encode_append .halt []⟩

/-! ## The forms the entries are made of -/

/-- The forms of 41 to 48: an instruction of each, by its operands. -/
inductive OfForm : Instr → Prop
  | ldRR (r r2 : Reg8) : OfForm (.ldRR r r2)
  | ldRN (r : Reg8) (n : Byte) : OfForm (.ldRN r n)
  | ldDDNN (dd : RegDD) (nn : Word) : OfForm (.ldDDNN dd nn)
  | ldSPHL : OfForm .ld_SP_HL
  | aluR (op : AluOp) (r : Reg8) : OfForm (.aluR op r)
  | aluN (op : AluOp) (n : Byte) : OfForm (.aluN op n)
  | addHLSS (ss : RegDD) : OfForm (.addHLSS ss)
  | adcHLSS (ss : RegDD) : OfForm (.adcHLSS ss)
  | sbcHLSS (ss : RegDD) : OfForm (.sbcHLSS ss)
  | incR (r : Reg8) : OfForm (.incR r)
  | decR (r : Reg8) : OfForm (.decR r)
  | incSS (ss : RegDD) : OfForm (.incSS ss)
  | decSS (ss : RegDD) : OfForm (.decSS ss)
  | jp (nn : Word) : OfForm (.jp_nn nn)
  | jpCC (cc : Cond) (nn : Word) : OfForm (.jpCC cc nn)
  | jr (e : Byte) : OfForm (.jr_e e)
  | jrCC (cc : Cond) (e : Byte) : OfForm (.jrCC cc e)
  | push (qq : RegQQ) : OfForm (.push qq)
  | pop (qq : RegQQ) : OfForm (.pop qq)
  | ei : OfForm .ei
  | di : OfForm .di
  | im (m : IntModeNum) : OfForm (.im m)
  | reti : OfForm .reti
  | retn : OfForm .retn
  | rst (p : RstTarget) : OfForm (.rst p)
  | halt : OfForm .halt
  | nop : OfForm .nop

/-- An entry of the main page makes instructions of one form, whatever operand bytes follow. -/
def EntryOfForm : MainEntry → Prop
  | .op i => OfForm i
  | .opN f => ∀ n, OfForm (f n)
  | .opE f => ∀ e, OfForm (f e)
  | .opNN f => ∀ nn, OfForm (f nn)

/-- R100, quadrant 00. -/
theorem decodeX0_ofForm {y z p q : Nat} {entry : MainEntry} (h : decodeX0 y z p q = some entry) :
    EntryOfForm entry := by
  unfold decodeX0 at h
  split at h
  case h_1 =>
    split at h
    case h_1 => cases h; exact .nop
    case h_2 => cases h; exact .jr
    case h_7 => cases h
    all_goals cases h; exact .jrCC _
  case h_2 =>
    split at h
    · cases h; exact .ldDDNN _
    · cases h; exact .addHLSS _
  case h_3 =>
    split at h
    · cases h; exact .incSS _
    · cases h; exact .decSS _
  case h_4 => obtain ⟨r, -, rfl⟩ := Option.map_eq_some_iff.mp h; exact .incR r
  case h_5 => obtain ⟨r, -, rfl⟩ := Option.map_eq_some_iff.mp h; exact .decR r
  case h_6 => obtain ⟨r, -, rfl⟩ := Option.map_eq_some_iff.mp h; exact .ldRN r
  case h_7 => cases h

/-- R100, quadrant 01. -/
theorem decodeX1_ofForm {y z : Nat} {entry : MainEntry} (h : decodeX1 y z = some entry) : EntryOfForm entry := by
  unfold decodeX1 at h
  split at h
  · cases h; exact .halt
  · obtain ⟨r, -, hr⟩ := Option.bind_eq_some_iff.mp h
    obtain ⟨r2, -, rfl⟩ := Option.map_eq_some_iff.mp hr
    exact .ldRR r r2

/-- R100, quadrant 10. -/
theorem decodeX2_ofForm {y z : Nat} {entry : MainEntry} (h : decodeX2 y z = some entry) : EntryOfForm entry := by
  obtain ⟨r, -, rfl⟩ := Option.map_eq_some_iff.mp h
  exact .aluR _ r

/-- R100, quadrant 11. -/
theorem decodeX3_ofForm {y z p q : Nat} {entry : MainEntry} (h : decodeX3 y z p q = some entry) :
    EntryOfForm entry := by
  unfold decodeX3 at h
  split at h
  case h_1 =>
    split at h
    · cases h; exact .pop _
    · split at h
      · cases h; exact .ldSPHL
      · cases h
  case h_2 =>
    split at h
    · cases h; exact .jpCC _
    · cases h
  case h_3 =>
    split at h
    case h_1 => cases h; exact .jp
    case h_2 => cases h; exact .di
    case h_3 => cases h; exact .ei
    case h_4 => cases h
  case h_4 =>
    split at h
    · cases h; exact .push _
    · cases h
  case h_5 => cases h; exact .aluN _
  case h_6 => cases h; exact .rst _
  case h_7 => cases h

theorem decodeMain_ofForm {op : Byte} {entry : MainEntry} (h : decodeMain op = some entry) : EntryOfForm entry := by
  unfold decodeMain at h
  dsimp only at h
  split at h
  · exact decodeX0_ofForm h
  · exact decodeX1_ofForm h
  · exact decodeX2_ofForm h
  · exact decodeX3_ofForm h

/-- R102. -/
theorem decodeEd_ofForm {op2 : Byte} {i : Instr} (h : decodeEd op2 = some i) : OfForm i := by
  unfold decodeEd at h
  dsimp only at h
  split_ifs at h <;> cases h
  · exact .sbcHLSS _
  · exact .adcHLSS _
  · exact .retn
  · exact .reti
  · exact .im .mode0
  · exact .im .mode1
  · exact .im .mode2

/-- Every instruction is of one of the forms: it is what its own encoding decodes to, and the decoder's entries make
instructions of these forms alone. -/
theorem ofForm (i : Instr) : OfForm i := by
  obtain ⟨op2, -, hed⟩ | ⟨op, entry, operands, -, hmain, hmakes⟩ := decode_ok_cases (decode_encode_append i [])
  · exact decodeEd_ofForm hed
  · have hform := decodeMain_ofForm hmain
    cases hmakes with
    | op => exact hform
    | opN f n => exact hform n
    | opE f e => exact hform e
    | opNN f lo hi => exact hform (wordOf hi lo)

/-- Settles O23: the constructors of `OfForm` are the alternatives of the statement. -/
theorem formsCoverEveryInstruction : Obligations.FormsCoverEveryInstruction := by
  intro i
  cases ofForm i
  case jpCC cc nn =>
    iterate 9 right
    exact .inl ⟨nn, .inr ⟨cc, rfl⟩⟩
  case jrCC cc e =>
    iterate 10 right
    exact .inl ⟨e, .inr ⟨cc, rfl⟩⟩
  all_goals simp only [exists_apply_eq_apply', exists_apply_eq_apply2', exists_or, true_or, or_true]

end Sys2Proof.Proofs.Decoding
end

section
/-!
PROOFS. Meanings (40_engine_step R127): what each form of instruction makes of the state, said once, and what follows
of every instruction: which control state it may write, where it stores, what it costs, and which bits of F it reads.
-/

namespace Sys2Proof.Proofs.Meanings

open Sys2Proof.Machine
open Sys2Proof.Proofs.InterruptControl (selectedMode exec_im)

/-! ## The effect of an instruction, form by form -/

/-- `Effect s i u cost`: the instruction `i` makes `u` of the state `s`, and then adds the entry `cost` of the cycle
table. -/
inductive Effect (s : State) : Instr → State → (Cyc → Nat) → Prop
  | ldRR (r r2 : Reg8) : Effect s (.ldRR r r2) (s.set8 r (s.get8 r2)) Cyc.ldRR
  | ldRN (r : Reg8) (n : Byte) : Effect s (.ldRN r n) (s.set8 r n) Cyc.ldRN
  | ldDDNN (dd : RegDD) (nn : Word) : Effect s (.ldDDNN dd nn) (s.setDD dd nn) Cyc.ldDDNN
  | ldSPHL : Effect s .ld_SP_HL (s.setSP (s.getDD .hl)) Cyc.ldSPHL
  | aluR (op : AluOp) (r : Reg8) : Effect s (.aluR op r) (aluApply op (s.get8 r) s) Cyc.aluR
  | aluN (op : AluOp) (n : Byte) : Effect s (.aluN op n) (aluApply op n s) Cyc.aluN
  | addHLSS (ss : RegDD) (r : AluResult 16) (hr : r = add16 (s.getDD .hl) (s.getDD ss) false) :
      Effect s (.addHLSS ss) ((s.setDD .hl r.res).setF (writeC s.f r.carry)) Cyc.addHLSS
  | adcHLSS (ss : RegDD) (r : AluResult 16) (hr : r = add16 (s.getDD .hl) (s.getDD ss) (flagC s.f)) :
      Effect s (.adcHLSS ss) ((s.setDD .hl r.res).setF (writeZC s.f r.zero r.carry)) Cyc.adcHLSS
  | sbcHLSS (ss : RegDD) (r : AluResult 16) (hr : r = sub16 (s.getDD .hl) (s.getDD ss) (flagC s.f)) :
      Effect s (.sbcHLSS ss) ((s.setDD .hl r.res).setF (writeZC s.f r.zero r.carry)) Cyc.sbcHLSS
  | incR (r : Reg8) :
      Effect s (.incR r) ((s.set8 r (s.get8 r + 1)).setF (writeZ s.f (s.get8 r + 1 == 0))) Cyc.incR
  | decR (r : Reg8) :
      Effect s (.decR r) ((s.set8 r (s.get8 r - 1)).setF (writeZ s.f (s.get8 r - 1 == 0))) Cyc.decR
  | incSS (ss : RegDD) : Effect s (.incSS ss) (s.setDD ss (s.getDD ss + 1)) Cyc.incSS
  | decSS (ss : RegDD) : Effect s (.decSS ss) (s.setDD ss (s.getDD ss - 1)) Cyc.decSS
  | jp (nn : Word) : Effect s (.jp_nn nn) (s.setPC nn) Cyc.jp
  | jpCC_taken (cc : Cond) (nn : Word) (h : condHolds cc s.f = true) :
      Effect s (.jpCC cc nn) (s.setPC nn) Cyc.jpCC
  | jpCC_notTaken (cc : Cond) (nn : Word) (h : condHolds cc s.f = false) :
      Effect s (.jpCC cc nn) s Cyc.jpCC
  | jr (e : Byte) : Effect s (.jr_e e) (s.setPC (s.pc + sext16 e)) Cyc.jr
  | jrCC_taken (cc : Cond) (e : Byte) (h : condHolds cc s.f = true) :
      Effect s (.jrCC cc e) (s.setPC (s.pc + sext16 e)) Cyc.jrCCTaken
  | jrCC_notTaken (cc : Cond) (e : Byte) (h : condHolds cc s.f = false) :
      Effect s (.jrCC cc e) s Cyc.jrCCNot
  | push (qq : RegQQ) : Effect s (.push qq) (s.push16 (s.getQQ qq)) Cyc.push
  | pop (qq : RegQQ) :
      Effect s (.pop qq) ((s.setSP (s.sp + 2)).setQQ qq (wordOf (s.readByte (s.sp + 1)) (s.readByte s.sp)))
        Cyc.pop
  | ei : Effect s .ei (enableInterrupts s) Cyc.ei
  | di : Effect s .di (disableInterrupts s) Cyc.di
  | im (m : IntModeNum) : Effect s (.im m) (setInterruptMode (selectedMode m) s) Cyc.im
  | reti : Effect s .reti (returnFromInterrupt (popPC s)) Cyc.reti
  | retn : Effect s .retn (returnFromInterrupt (popPC s)) Cyc.retn
  | rst (p : RstTarget) : Effect s (.rst p) ((s.push16 s.pc).setPC (rstAddress p)) Cyc.rst
  | halt : Effect s .halt (s.setHalted true) Cyc.halt
  | nop : Effect s .nop s Cyc.nop

/-- The effect is the meaning: `exec` answers what it says, at its cost. -/
theorem exec_of_effect {s u : State} {i : Instr} {cost : Cyc → Nat} (h : Effect s i u cost) :
    exec i s = .next (u.addCycles (cost s.config.cyc)) := by
  cases h with
  | ldRR r r2 => exact exec_ldRR r r2 s
  | ldRN r n => exact exec_ldRN r n s
  | ldDDNN dd nn => exact exec_ldDDNN dd nn s
  | aluR op r => exact exec_aluR op r s
  | aluN op n => exact exec_aluN op n s
  | addHLSS ss r hr => subst hr; exact exec_addHLSS ss s
  | adcHLSS ss r hr => subst hr; exact exec_adcHLSS ss s
  | sbcHLSS ss r hr => subst hr; exact exec_sbcHLSS ss s
  | incR r => exact exec_incR r s
  | decR r => exact exec_decR r s
  | incSS ss => exact exec_incSS ss s
  | decSS ss => exact exec_decSS ss s
  | jpCC_taken cc nn h => rw [exec_jpCC, jumpAbsIf, if_pos h]
  | jpCC_notTaken cc nn h => rw [exec_jpCC, jumpAbsIf, if_neg (Bool.eq_false_iff.mp h)]
  | jrCC_taken cc e h => rw [exec_jrCC, Jumps.jumpRelIf_taken h, branchBy]
  | jrCC_notTaken cc e h => rw [exec_jrCC, Jumps.jumpRelIf_notTaken h]
  | push qq => exact exec_push qq s
  | pop qq => rw [exec_pop, popPair, pop16_eq]
  | im m => exact exec_im m s
  | rst p => exact exec_rst p s
  | ldSPHL | jp | jr | ei | di | reti | retn | halt | nop => rfl

/-- Every instruction has an effect in every state, its form's. -/
theorem exists_effect (i : Instr) (s : State) : ∃ u cost, Effect s i u cost := by
  cases Decoding.ofForm i with
  | ldRR r r2 => exact ⟨_, _, .ldRR r r2⟩
  | ldRN r n => exact ⟨_, _, .ldRN r n⟩
  | ldDDNN dd nn => exact ⟨_, _, .ldDDNN dd nn⟩
  | ldSPHL => exact ⟨_, _, .ldSPHL⟩
  | aluR op r => exact ⟨_, _, .aluR op r⟩
  | aluN op n => exact ⟨_, _, .aluN op n⟩
  | addHLSS ss => exact ⟨_, _, .addHLSS ss _ rfl⟩
  | adcHLSS ss => exact ⟨_, _, .adcHLSS ss _ rfl⟩
  | sbcHLSS ss => exact ⟨_, _, .sbcHLSS ss _ rfl⟩
  | incR r => exact ⟨_, _, .incR r⟩
  | decR r => exact ⟨_, _, .decR r⟩
  | incSS ss => exact ⟨_, _, .incSS ss⟩
  | decSS ss => exact ⟨_, _, .decSS ss⟩
  | jp nn => exact ⟨_, _, .jp nn⟩
  | jpCC cc nn =>
    cases hc : condHolds cc s.f with
    | true => exact ⟨_, _, .jpCC_taken cc nn hc⟩
    | false => exact ⟨_, _, .jpCC_notTaken cc nn hc⟩
  | jr e => exact ⟨_, _, .jr e⟩
  | jrCC cc e =>
    cases hc : condHolds cc s.f with
    | true => exact ⟨_, _, .jrCC_taken cc e hc⟩
    | false => exact ⟨_, _, .jrCC_notTaken cc e hc⟩
  | push qq => exact ⟨_, _, .push qq⟩
  | pop qq => exact ⟨_, _, .pop qq⟩
  | ei => exact ⟨_, _, .ei⟩
  | di => exact ⟨_, _, .di⟩
  | im m => exact ⟨_, _, .im m⟩
  | reti => exact ⟨_, _, .reti⟩
  | retn => exact ⟨_, _, .retn⟩
  | rst p => exact ⟨_, _, .rst p⟩
  | halt => exact ⟨_, _, .halt⟩
  | nop => exact ⟨_, _, .nop⟩

/-- What is known of an instruction that has answered a next state. -/
theorem effect_of_exec {i : Instr} {s t : State} (h : exec i s = .next t) :
    ∃ u cost, Effect s i u cost ∧ t = u.addCycles (cost s.config.cyc) := by
  obtain ⟨u, cost, he⟩ := exists_effect i s
  rw [exec_of_effect he] at h
  exact ⟨u, cost, he, (Host.Outcome.next.inj h).symm⟩

/-- Settles O24: the effect of the instruction's form is the next state. -/
theorem everyInstructionCompletes : Obligations.EveryInstructionCompletes := by
  intro i s
  obtain ⟨u, cost, he⟩ := exists_effect i s
  exact ⟨_, exec_of_effect he⟩

/-! ## The fields of the shared operations that have no rule yet -/

@[simp] theorem push16_fields (s : State) (v : Word) :
    (s.push16 v).f = s.f ∧ (s.push16 v).halted = s.halted ∧ (s.push16 v).iff1 = s.iff1 ∧
    (s.push16 v).iff2 = s.iff2 ∧ (s.push16 v).mode = s.mode ∧ (s.push16 v).i = s.i ∧
    (s.push16 v).eiDelay = s.eiDelay ∧ (s.push16 v).samplePoint = s.samplePoint ∧
    (s.push16 v).nmiPending = s.nmiPending ∧ (s.push16 v).nmiTriggered = s.nmiTriggered ∧
    (s.push16 v).pendingMaskable = s.pendingMaskable ∧ (s.push16 v).fault = s.fault ∧
    (s.push16 v).cycles = s.cycles ∧ (s.push16 v).romSize = s.romSize ∧ (s.push16 v).ramSize = s.ramSize ∧
    (s.push16 v).config = s.config := by
  rw [push16_eq]
  simp

theorem push16_config (s : State) (v : Word) : (s.push16 v).config = s.config := by
  simp only [push16_fields]

@[simp] theorem popPC_fields (s : State) :
    (popPC s).f = s.f ∧ (popPC s).halted = s.halted ∧ (popPC s).iff1 = s.iff1 ∧ (popPC s).iff2 = s.iff2 ∧
    (popPC s).mode = s.mode ∧ (popPC s).i = s.i ∧ (popPC s).eiDelay = s.eiDelay ∧
    (popPC s).samplePoint = s.samplePoint ∧ (popPC s).nmiPending = s.nmiPending ∧
    (popPC s).nmiTriggered = s.nmiTriggered ∧ (popPC s).pendingMaskable = s.pendingMaskable ∧
    (popPC s).mem = s.mem ∧ (popPC s).fault = s.fault ∧ (popPC s).cycles = s.cycles ∧
    (popPC s).romSize = s.romSize ∧ (popPC s).ramSize = s.ramSize ∧ (popPC s).config = s.config := by
  rw [popPC_eq]
  simp

/-- R150: an ALU operation writes A and F. -/
theorem aluApply_eq (op : AluOp) (x : Byte) (s : State) :
    aluApply op x s = (s.setF (aluApply op x s).f).set8 .a (aluApply op x s).a := by
  cases op <;> rfl

/-- R150: whatever the operation, F is its two flags written. -/
theorem aluApply_f (op : AluOp) (x : Byte) (s : State) :
    (aluApply op x s).f =
      writeZC s.f (aluCompute op s.a x (flagC s.f)).zero (aluCompute op s.a x (flagC s.f)).carry := by
  cases op <;> rfl

@[simp] theorem aluApply_fields (op : AluOp) (x : Byte) (s : State) :
    (aluApply op x s).halted = s.halted ∧ (aluApply op x s).iff1 = s.iff1 ∧ (aluApply op x s).iff2 = s.iff2 ∧
    (aluApply op x s).mode = s.mode ∧ (aluApply op x s).i = s.i ∧ (aluApply op x s).eiDelay = s.eiDelay ∧
    (aluApply op x s).samplePoint = s.samplePoint ∧ (aluApply op x s).nmiPending = s.nmiPending ∧
    (aluApply op x s).nmiTriggered = s.nmiTriggered ∧ (aluApply op x s).pendingMaskable = s.pendingMaskable ∧
    (aluApply op x s).mem = s.mem ∧ (aluApply op x s).fault = s.fault ∧ (aluApply op x s).cycles = s.cycles ∧
    (aluApply op x s).romSize = s.romSize ∧ (aluApply op x s).ramSize = s.ramSize ∧
    (aluApply op x s).config = s.config := by
  rw [aluApply_eq]
  simp

/-! ## What an effect leaves -/

section
variable {s u : State} {i : Instr} {cost : Cyc → Nat}

/-- R127: no instruction writes I, the latches, the queue, the sample point, the failure or the parameters; nor does it
count cycles before its cost is added. -/
theorem effect_frame (h : Effect s i u cost) :
    u.i = s.i ∧ u.nmiPending = s.nmiPending ∧ u.nmiTriggered = s.nmiTriggered ∧
    u.pendingMaskable = s.pendingMaskable ∧ u.samplePoint = s.samplePoint ∧ u.fault = s.fault ∧
    u.config = s.config ∧ u.romSize = s.romSize ∧ u.ramSize = s.ramSize ∧ u.cycles = s.cycles := by
  cases h <;> simp

/-- R127: the mode is written by IM alone. -/
theorem effect_mode (h : Effect s i u cost) : u.mode = s.mode ∨ ∃ m, i = .im m := by
  cases h
  case im m => exact .inr ⟨m, rfl⟩
  all_goals exact .inl (by simp)

/-- R127: the enable bits and the delay are written by EI and DI, and `iff1` by the two returns, which take it from
`iff2`. -/
theorem effect_enable (h : Effect s i u cost) :
    i = .ei ∨ (i = .di ∧ u.eiDelay = 0) ∨
    (u.iff2 = s.iff2 ∧ u.eiDelay = s.eiDelay ∧
      ((i = .reti ∨ i = .retn) ∧ u.iff1 = s.iff2 ∨ u.iff1 = s.iff1)) := by
  cases h
  case ei => exact .inl rfl
  case di => exact .inr (.inl ⟨rfl, rfl⟩)
  case reti | retn => simp
  all_goals exact .inr (.inr ⟨by simp, by simp, .inr (by simp)⟩)

/-- R127: Halted is set by HALT alone. -/
theorem effect_halted (h : Effect s i u cost) : i = .halt ∨ u.halted = s.halted := by
  cases h
  case halt => exact .inl rfl
  all_goals exact .inr (by simp)

/-- R64: memory is as it was, or PUSH or RST has pushed a word. -/
theorem effect_mem (h : Effect s i u cost) :
    u.mem = s.mem ∨ ((∃ qq, i = .push qq) ∨ ∃ p, i = .rst p) ∧ ∃ v, u.mem = (s.push16 v).mem := by
  cases h
  case push qq => exact .inr ⟨.inl ⟨qq, rfl⟩, _, rfl⟩
  case rst p => exact .inr ⟨.inr ⟨p, rfl⟩, s.pc, rfl⟩
  all_goals exact .inl (by simp)

/-- R31: the cost is one of the table's, whatever the table. -/
theorem effect_cost (h : Effect s i u cost) (table : Cyc) : cost table ∈ table.costs := by
  cases h <;> simp [Cyc.costs]

/-- R27: only POP AF writes another bit of F than Zero and Carry. -/
theorem effect_reserved (h : Effect s i u cost) :
    i = .pop_AF ∨ ∀ k, k ≠ 6 → k ≠ 0 → u.f.getLsbD k = s.f.getLsbD k := by
  cases h
  case pop qq =>
    cases qq
    case af => exact .inl rfl
    all_goals exact .inr fun _ _ _ => rfl
  case aluR op r =>
    obtain ⟨-, -, kept⟩ := writeZC_bits s.f (aluCompute op s.a (s.get8 r) (flagC s.f)).zero
      (aluCompute op s.a (s.get8 r) (flagC s.f)).carry
    exact .inr (aluApply_f op (s.get8 r) s ▸ kept)
  case aluN op n =>
    obtain ⟨-, -, kept⟩ := writeZC_bits s.f (aluCompute op s.a n (flagC s.f)).zero
      (aluCompute op s.a n (flagC s.f)).carry
    exact .inr (aluApply_f op n s ▸ kept)
  case addHLSS ss r hr =>
    obtain ⟨-, -, kept⟩ := writeC_bits s.f r.carry
    exact .inr kept
  case adcHLSS ss r hr | sbcHLSS ss r hr =>
    obtain ⟨-, -, kept⟩ := writeZC_bits s.f r.zero r.carry
    exact .inr kept
  case incR r =>
    obtain ⟨-, -, kept⟩ := writeZ_bits s.f (s.get8 r + 1 == 0)
    exact .inr kept
  case decR r =>
    obtain ⟨-, -, kept⟩ := writeZ_bits s.f (s.get8 r - 1 == 0)
    exact .inr kept
  all_goals exact .inr (by simp)

end

/-! ## What an effect does not read -/

/-- R26, R335: the state with another F, another count of cycles and another cycle table. -/
def withUnread (s : State) (f : Byte) (count : BitVec 64) (table : Cyc) : State :=
  { s with f := f, cycles := count, config := { s.config with cyc := table } }

section
variable (s : State) (f : Byte) (count : BitVec 64) (table : Cyc)

@[simp] theorem withUnread_fields :
    (withUnread s f count table).a = s.a ∧ (withUnread s f count table).f = f ∧
    (withUnread s f count table).sp = s.sp ∧ (withUnread s f count table).pc = s.pc ∧
    (withUnread s f count table).mem = s.mem ∧ (withUnread s f count table).cycles = count ∧
    (withUnread s f count table).config = { s.config with cyc := table } := ⟨rfl, rfl, rfl, rfl, rfl, rfl, rfl⟩

@[simp] theorem get8_withUnread (r : Reg8) : (withUnread s f count table).get8 r = s.get8 r := rfl

@[simp] theorem getDD_withUnread (dd : RegDD) : (withUnread s f count table).getDD dd = s.getDD dd := rfl

@[simp] theorem readByte_withUnread (x : Word) : (withUnread s f count table).readByte x = s.readByte x := rfl

@[simp] theorem setSP_withUnread (v : Word) :
    (withUnread s f count table).setSP v = withUnread (s.setSP v) f count table := rfl

@[simp] theorem setPC_withUnread (v : Word) :
    (withUnread s f count table).setPC v = withUnread (s.setPC v) f count table := rfl

@[simp] theorem setF_withUnread (f' : Byte) :
    (withUnread s f count table).setF f' = withUnread s f' count table := rfl

@[simp] theorem withUnread_setF (f' : Byte) :
    withUnread (s.setF f') f count table = withUnread s f count table := rfl

@[simp] theorem set8_withUnread (r : Reg8) (v : Byte) :
    (withUnread s f count table).set8 r v = withUnread (s.set8 r v) f count table := by
  cases r <;> rfl

@[simp] theorem setDD_withUnread (dd : RegDD) (v : Word) :
    (withUnread s f count table).setDD dd v = withUnread (s.setDD dd v) f count table := by
  cases dd <;> rfl

@[simp] theorem push16_withUnread (v : Word) :
    (withUnread s f count table).push16 v = withUnread (s.push16 v) f count table := by
  have hmem : ((withUnread s f count table).push16 v).mem = (s.push16 v).mem := by
    simp only [push16_mem]
    rfl
  rw [push16_eq, push16_eq s v, hmem]
  rfl

@[simp] theorem popPC_withUnread : popPC (withUnread s f count table) = withUnread (popPC s) f count table := by
  simp [popPC_eq]

@[simp] theorem returnFromInterrupt_withUnread :
    returnFromInterrupt (withUnread s f count table) = withUnread (returnFromInterrupt s) f count table := rfl

end

/-- R97: a condition reads Zero or Carry. -/
theorem condHolds_congr {f g : Byte} (hz : flagZ f = flagZ g) (hc : flagC f = flagC g) (cc : Cond) :
    condHolds cc f = condHolds cc g := by
  cases cc <;> simp only [condHolds, hz, hc]

/-- R26: two values of F agree in Zero and Carry. -/
def SameFlags (f g : Byte) : Prop := flagZ f = flagZ g ∧ flagC f = flagC g

/-- Two writes of both flags agree in them, whatever F was before. -/
theorem sameFlags_writeZC (f g : Byte) (z c : Bool) : SameFlags (writeZC f z c) (writeZC g z c) := by
  obtain ⟨fz, fc, -⟩ := writeZC_bits f z c
  obtain ⟨gz, gc, -⟩ := writeZC_bits g z c
  exact ⟨fz.trans gz.symm, fc.trans gc.symm⟩

theorem sameFlags_writeZ {f g : Byte} (h : SameFlags f g) (z : Bool) : SameFlags (writeZ f z) (writeZ g z) := by
  obtain ⟨-, hc⟩ := h
  obtain ⟨fz, fc, -⟩ := writeZ_bits f z
  obtain ⟨gz, gc, -⟩ := writeZ_bits g z
  exact ⟨fz.trans gz.symm, fc.trans (hc.trans gc.symm)⟩

theorem sameFlags_writeC {f g : Byte} (h : SameFlags f g) (c : Bool) : SameFlags (writeC f c) (writeC g c) := by
  obtain ⟨hz, -⟩ := h
  obtain ⟨fz, fc, -⟩ := writeC_bits f c
  obtain ⟨gz, gc, -⟩ := writeC_bits g c
  exact ⟨fz.trans (hz.trans gz.symm), fc.trans gc.symm⟩

/-- R150: an ALU operation reads of F the carry flag alone. -/
theorem aluApply_withUnread (s : State) (count : BitVec 64) (table : Cyc) {f : Byte} (hc : flagC f = flagC s.f)
    (op : AluOp) (x : Byte) :
    aluApply op x (withUnread s f count table) =
      withUnread (aluApply op x s)
        (writeZC f (aluCompute op s.a x (flagC s.f)).zero (aluCompute op s.a x (flagC s.f)).carry) count table := by
  cases op <;> simp only [aluApply, withUnread_fields, hc, setF_withUnread, set8_withUnread] <;> rfl

/-- R26, R335: an effect goes the same way from a state with another F, if that agrees in Zero and Carry, another count
and another cycle table. F agrees in the two flags afterwards, and is the same if it was. -/
theorem effect_withUnread {s u : State} {i : Instr} {cost : Cyc → Nat} (h : Effect s i u cost) (f : Byte)
    (count : BitVec 64) (table : Cyc) (hf : SameFlags f s.f) (haf : i = .push_AF → f = s.f) :
    ∃ f', Effect (withUnread s f count table) i (withUnread u f' count table) cost ∧ SameFlags f' u.f ∧
      (f = s.f → f' = u.f) := by
  obtain ⟨hz, hc⟩ := hf
  cases h
  case aluR op r =>
    have he := Effect.aluR (s := withUnread s f count table) op r
    rw [get8_withUnread, aluApply_withUnread s count table hc] at he
    exact ⟨_, he, aluApply_f op _ s ▸ sameFlags_writeZC _ _ _ _, fun e => by rw [e, aluApply_f]⟩
  case aluN op n =>
    have he := Effect.aluN (s := withUnread s f count table) op n
    rw [aluApply_withUnread s count table hc] at he
    exact ⟨_, he, aluApply_f op _ s ▸ sameFlags_writeZC _ _ _ _, fun e => by rw [e, aluApply_f]⟩
  case addHLSS ss r hr =>
    exact ⟨_, by simpa using Effect.addHLSS (s := withUnread s f count table) ss r hr,
      sameFlags_writeC ⟨hz, hc⟩ _, fun e => by rw [e]; rfl⟩
  case adcHLSS ss r hr =>
    rw [← hc] at hr
    exact ⟨_, by simpa using Effect.adcHLSS (s := withUnread s f count table) ss r hr,
      sameFlags_writeZC _ _ _ _, fun e => by rw [e]; rfl⟩
  case sbcHLSS ss r hr =>
    rw [← hc] at hr
    exact ⟨_, by simpa using Effect.sbcHLSS (s := withUnread s f count table) ss r hr,
      sameFlags_writeZC _ _ _ _, fun e => by rw [e]; rfl⟩
  case incR r =>
    exact ⟨_, by simpa using Effect.incR (s := withUnread s f count table) r,
      sameFlags_writeZ ⟨hz, hc⟩ _, fun e => by rw [e]; rfl⟩
  case decR r =>
    exact ⟨_, by simpa using Effect.decR (s := withUnread s f count table) r,
      sameFlags_writeZ ⟨hz, hc⟩ _, fun e => by rw [e]; rfl⟩
  case pop qq =>
    have he := Effect.pop (s := withUnread s f count table) qq
    cases qq
    case af => exact ⟨_, he, ⟨rfl, rfl⟩, fun _ => rfl⟩
    all_goals exact ⟨_, he, ⟨hz, hc⟩, id⟩
  case push qq =>
    have hq : (withUnread s f count table).getQQ qq = s.getQQ qq := by
      cases qq
      case af => rw [haf rfl]; rfl
      all_goals rfl
    have he := Effect.push (s := withUnread s f count table) qq
    rw [hq, push16_withUnread] at he
    exact ⟨f, he, ⟨by simpa using hz, by simpa using hc⟩, by simp⟩
  all_goals refine ⟨f, ?_, ⟨by simpa using hz, by simpa using hc⟩, by simp⟩
  case ldRR r r2 => simpa using Effect.ldRR (s := withUnread s f count table) r r2
  case ldRN r n => simpa using Effect.ldRN (s := withUnread s f count table) r n
  case ldDDNN dd nn => simpa using Effect.ldDDNN (s := withUnread s f count table) dd nn
  case ldSPHL => exact .ldSPHL
  case incSS ss => simpa using Effect.incSS (s := withUnread s f count table) ss
  case decSS ss => simpa using Effect.decSS (s := withUnread s f count table) ss
  case jp nn => exact .jp nn
  case jpCC_taken cc nn h => exact .jpCC_taken cc nn (condHolds_congr hz hc cc ▸ h)
  case jpCC_notTaken cc nn h => exact .jpCC_notTaken cc nn (condHolds_congr hz hc cc ▸ h)
  case jr e => exact .jr e
  case jrCC_taken cc e h => exact .jrCC_taken cc e (condHolds_congr hz hc cc ▸ h)
  case jrCC_notTaken cc e h => exact .jrCC_notTaken cc e (condHolds_congr hz hc cc ▸ h)
  case ei => exact .ei
  case di => exact .di
  case im m => exact .im m
  case reti => simpa using Effect.reti (s := withUnread s f count table)
  case retn => simpa using Effect.retn (s := withUnread s f count table)
  case rst p => simpa using Effect.rst (s := withUnread s f count table) p
  case halt => exact .halt
  case nop => exact .nop

/-! ## The obligations -/

/-- Settles O52: what an effect leaves, clause by clause; the cost touches none of it. -/
theorem instructionsWriteOnlyTheirControlState : Obligations.InstructionsWriteOnlyTheirControlState := by
  intro i s t ht
  obtain ⟨u, cost, he, rfl⟩ := effect_of_exec ht
  obtain ⟨hi, hpend, htrig, hqueue, hsample, hfault, hconfig, hrom, hram, -⟩ := effect_frame he
  refine ⟨hi, hpend, htrig, hqueue, hsample, hfault, hconfig, hrom, hram, fun hm => ?_, fun hei hdi => ?_,
    fun hei hdi hreti hretn => ?_, fun hhalt => ?_⟩
  · obtain hmode | ⟨m, rfl⟩ := effect_mode he
    · exact hmode
    · exact absurd rfl (hm m)
  · obtain rfl | ⟨rfl, -⟩ | ⟨hiff2, hdelay, -⟩ := effect_enable he
    · exact absurd rfl hei
    · exact absurd rfl hdi
    · exact ⟨hiff2, hdelay⟩
  · obtain rfl | ⟨rfl, -⟩ | ⟨-, -, ⟨rfl | rfl, -⟩ | hiff1⟩ := effect_enable he
    · exact absurd rfl hei
    · exact absurd rfl hdi
    · exact absurd rfl hreti
    · exact absurd rfl hretn
    · exact hiff1
  · obtain rfl | hhalted := effect_halted he
    · exact absurd rfl hhalt
    · exact hhalted

/-- Settles O57: both runs are one effect, with the same count and table, so they end in states that differ in F
alone. -/
theorem reservedFlagBitsAreReadOnlyByPushAF : Obligations.ReservedFlagBitsAreReadOnlyByPushAF := by
  intro i s f hi h6 h0 t u ht hu
  obtain ⟨v, cost, he, rfl⟩ := effect_of_exec ht
  obtain ⟨f', he', ⟨hz, hc⟩, -⟩ :=
    effect_withUnread he f s.cycles s.config.cyc ⟨h6, h0⟩ (fun e => absurd e hi)
  obtain ⟨-, -, -, -, -, -, hconfig, -, -, hcycles⟩ := effect_frame he
  have same : withUnread v f' s.cycles s.config.cyc = v.setF f' := by
    rw [← hconfig, ← hcycles]
    rfl
  rw [same] at he'
  cases hu.symm.trans (exec_of_effect he')
  exact ⟨rfl, hz, hc⟩

end Sys2Proof.Proofs.Meanings
end

section
/-!
PROOFS. The interrupt controller (60_exceptions section 1): the delay, the selection and the vectors of a request, the
Mode0 bytes, and the queue that arrivals build.
-/

namespace Sys2Proof.Proofs.Controller

open Sys2Proof.Machine

/-! ## The delay, the selection and the vectors -/

/-- Settles O30: the sample point is the test of the delay on entry, and the delay is 0 after any `BeforeInstruction`; so
of two in a row after `EnableInterrupts`, which sets it to 1, only the second finds 0. -/
theorem samplePointBeforeDecrement : Obligations.SamplePointBeforeDecrement := by
  intro s
  have first := beforeInstruction_eq s
  have armed := beforeInstruction_eq (enableInterrupts s)
  refine ⟨rfl, by rw [first], by rw [first], by rw [armed]; rfl, ?_⟩
  rw [beforeInstruction_eq (beforeInstruction (enableInterrupts s)), armed]
  rfl

/-- R256: whether an NMI is taken, by its latch and whether it is triggered already. -/
theorem takesNmi_iff (s : State) : s.takesNmi = true ↔ s.nmiPending = true ∧ s.nmiTriggered = false := by
  simp [State.takesNmi]

/-- Settles O31: the three answers are the branches of `ShouldProcessInterrupt`. -/
theorem interruptSelectionOrder : Obligations.InterruptSelectionOrder := by
  intro s
  refine ⟨fun hpend htrig => ⟨?_, rfl⟩, fun hno => ⟨fun r rest hiff hsample hqueue => ?_, fun hnone => ?_⟩⟩
  · exact if_pos ((takesNmi_iff s).mpr ⟨hpend, htrig⟩)
  · have hskip : ¬ (s.nmiPending && !s.nmiTriggered) = true := (takesNmi_iff s).not.mpr hno
    rw [shouldProcessInterrupt, if_neg hskip, if_pos (by rw [hiff, hsample]; rfl), hqueue]
  · have hskip : ¬ (s.nmiPending && !s.nmiTriggered) = true := (takesNmi_iff s).not.mpr hno
    rw [shouldProcessInterrupt, if_neg hskip]
    rcases hnone with hiff | hsample | hqueue
    · rw [if_neg (by simp [hiff])]
    · rw [if_neg (by simp [hsample])]
    · simp [hqueue]

/-- R258: the vector of Mode2 as the spec writes it, `(I << 8) | vector`. -/
theorem append_eq_shift_or (hi lo : Byte) :
    hi ++ lo = (BitVec.zeroExtend 16 hi <<< 8) ||| BitVec.zeroExtend 16 lo := by
  have hdef : hi ++ lo = hi.shiftLeftZeroExtend 8 ||| lo.zeroExtend 16 := rfl
  rw [hdef, BitVec.shiftLeftZeroExtend_eq]

/-- Settles O32: one branch of `ProcessInterrupt` for each type and mode; the mode is not touched by the save. -/
theorem processInterruptVectors : Obligations.ProcessInterruptVectors := by
  intro r s saved
  refine ⟨fun htype => ?_, fun htype hmode => ?_, fun htype hmode => ?_, fun htype hmode => ?_⟩
  · simp only [processInterrupt, htype, saved]
  · simp only [processInterrupt, htype, hmode, saved]
  · simp only [processInterrupt, htype, hmode, saved]
  · rw [← append_eq_shift_or]
    simp only [processInterrupt, htype, hmode, saved]

/-- R241, R262: a byte of the shape `11yyy111` is the RST of its middle bits. -/
theorem eq_restart_of_masked :
    ∀ v : Byte, v &&& 0xC7 = 0xC7 → v = 0xC7 ||| ((RstTarget.ofCode (v.toNat / 8 % 8)).code <<< 3) := by
  decide

/-- Settles O29: the decoder tests the shape `11yyy111`, which exactly the eight RST bytes have. -/
theorem mode0DecodesOnlyRestarts : Obligations.Mode0DecodesOnlyRestarts := by
  intro v
  constructor
  · rintro p rfl
    cases p <;> rfl
  · intro hother
    exact if_neg fun hmask => hother _ (eq_restart_of_masked v hmask)

/-! ## The queue -/

/-- R254: a maskable request goes into the queue and nowhere else. -/
theorem requestInterrupt_maskable {r : InterruptRequest} (h : r.type = .maskable) (s : State) :
    requestInterrupt r s = { s with pendingMaskable := enqueue s.pendingMaskable r } := by
  rw [requestInterrupt, h]

/-- R254: an NMI request sets the latch and writes nothing else. -/
theorem requestInterrupt_nonMaskable {r : InterruptRequest} (h : r.type = .nonMaskable) (s : State) :
    requestInterrupt r s = { s with nmiPending := true } := by
  rw [requestInterrupt, h]

/-- A sorted queue is its entries of lower-or-equal number followed by the rest. -/
theorem filter_le_append_filter_gt {q : List InterruptRequest} (h : queueSorted q = true) (r : InterruptRequest) :
    q.filter (fun x => decide (x.priority ≤ r.priority)) ++ q.filter (fun x => decide (r.priority < x.priority)) =
      q := by
  have hparts := enqueue_sorted q r h
  obtain ⟨hbefore, hafter⟩ := List.append_inj hparts (by
    rw [List.length_take, List.countP_eq_length_filter]
    exact min_eq_left (List.length_filter_le _ _))
  rw [← hbefore, ← (List.cons.inj hafter).2, List.take_append_drop]

/-- Settles O33: the entries before the request's place are those of lower-or-equal number, the rest are those above. -/
theorem requestLatchesOrQueues : Obligations.RequestLatchesOrQueues := by
  intro r s
  refine ⟨fun htype => requestInterrupt_nonMaskable htype s, fun htype hsorted => ?_⟩
  refine ⟨_, _, (filter_le_append_filter_gt hsorted r).symm, ?_, ?_, ?_⟩
  · intro x hx
    simpa using (List.mem_filter.mp hx).2
  · intro x hx
    simpa using (List.mem_filter.mp hx).2
  · rw [requestInterrupt_maskable htype, enqueue_sorted _ _ hsorted]

/-- R49: an arrival goes behind the entries of its own priority, and the others' order is as it was. -/
theorem filter_priority_enqueue {q : List InterruptRequest} (h : queueSorted q = true) (r : InterruptRequest)
    (p : Int) :
    (enqueue q r).filter (fun x => decide (x.priority = p)) =
      (q ++ [r]).filter (fun x => decide (x.priority = p)) := by
  conv_rhs => rw [← filter_le_append_filter_gt h r]
  simp only [enqueue_sorted q r h, List.filter_append, List.filter_cons, List.append_assoc, List.filter_nil]
  congr 1
  by_cases hp : r.priority = p
  · subst hp
    have hnone : (q.filter (fun x => decide (r.priority < x.priority))).filter
        (fun x => decide (x.priority = r.priority)) = [] := by
      rw [List.filter_eq_nil_iff]
      intro x hx
      have hlt : r.priority < x.priority := by simpa using (List.mem_filter.mp hx).2
      simpa using hlt.ne'
    rw [hnone]
    simp
  · simp [hp]

/-- R49: arrivals keep a queue that may stand so, and each priority's requests in the order of arrival. -/
theorem foldl_requestInterrupt (rs : List InterruptRequest) (s : State) (hmask : ∀ r ∈ rs, r.type = .maskable)
    (hq : queueWf s.pendingMaskable = true) :
    let q := (rs.foldl (fun u r => requestInterrupt r u) s).pendingMaskable
    queueWf q = true ∧ ∀ p : Int, q.filter (fun r => decide (r.priority = p)) =
      (s.pendingMaskable ++ rs).filter (fun r => decide (r.priority = p)) := by
  induction rs generalizing s with
  | nil => simp [hq]
  | cons r rest ih =>
    obtain ⟨hr, hrest⟩ := List.forall_mem_cons.mp hmask
    obtain ⟨-, hsorted⟩ := Bool.and_eq_true_iff.mp hq
    have hqueue : (requestInterrupt r s).pendingMaskable = enqueue s.pendingMaskable r := by
      rw [requestInterrupt_maskable hr]
    have hwf := hqueue ▸ queueWf_enqueue _ r hq hr
    obtain ⟨hwf', horder⟩ := ih (requestInterrupt r s) hrest hwf
    refine ⟨hwf', fun p => ?_⟩
    calc _ = ((requestInterrupt r s).pendingMaskable ++ rest).filter (fun x => decide (x.priority = p)) := horder p
      _ = (s.pendingMaskable ++ r :: rest).filter (fun x => decide (x.priority = p)) := by
        rw [hqueue, List.filter_append, filter_priority_enqueue hsorted, ← List.filter_append, List.append_assoc]
        rfl

/-- Settles O34: the arrivals of an empty queue. -/
theorem queueIsSortedAndStable : Obligations.QueueIsSortedAndStable := by
  intro rs s hempty hmask q
  obtain ⟨hwf, horder⟩ := foldl_requestInterrupt rs s hmask (by rw [hempty]; rfl)
  rw [hempty, List.nil_append] at horder
  obtain ⟨-, hsorted⟩ := Bool.and_eq_true_iff.mp hwf
  exact ⟨hsorted, horder⟩

end Sys2Proof.Proofs.Controller
end

section
/-!
PROOFS. The host's moves (60_exceptions section 6, 20_memory R61, 70_reset_and_hazards R320): what each writes and
leaves, Reset, `LoadRom`, the inspection surface, and the invariant between steps.
-/

namespace Sys2Proof.Proofs.HostMoves

open Sys2Proof.Machine

/-! ## Registers and memory through the inspection surface -/

/-- R300: an 8-bit register takes the low byte and reads zero-extended. -/
theorem zext16_loByte (v : Word) : zext16 (loByte v) = v &&& 0x00FF := by
  apply BitVec.eq_of_toNat_eq
  have hmask : v.toNat &&& 255 = v.toNat % 256 := Nat.and_two_pow_sub_one_eq_mod v.toNat 8
  have hsmall : v.toNat % 256 < 65536 := by omega
  simpa [zext16, loByte, hmask] using hsmall

/-- R300: a register written reads back, cut to its width. -/
theorem inspectRead_inspectWrite_same (r : InspectReg) (v : Word) (s : State) :
    inspectRead r (inspectWrite r v s) = if r.wide then v else v &&& 0x00FF := by
  cases r
  case sp | pc => rfl
  all_goals exact zext16_loByte v

theorem inspectRead_inspectWrite_other {r q : InspectReg} (h : q ≠ r) (v : Word) (s : State) :
    inspectRead q (inspectWrite r v s) = inspectRead q s := by
  cases r <;> cases q
  case a.a | f.f | b.b | c.c | d.d | e.e | h.h | l.l | sp.sp | pc.pc => exact absurd rfl h
  all_goals rfl

/-- R300: a register write touches the ten registers of the surface alone. -/
theorem inspectWrite_eq (r : InspectReg) (v : Word) (s : State) :
    let t := inspectWrite r v s
    t =
      { s with
        a := t.a, f := t.f, b := t.b, c := t.c, d := t.d, e := t.e, h := t.h, l := t.l, sp := t.sp, pc := t.pc } := by
  cases r <;> rfl

/-- R63: a byte write keeps the RAM window. -/
@[simp] theorem writeByte_config (s : State) (x : Word) (v : Byte) : (s.writeByte x v).config = s.config := by
  rw [writeByte_eq]
  rfl

/-- R300: the byte at an address after a range was written is the range's, if the address is in it and in the RAM
window. -/
theorem readByte_inspectWriteRange (start : Word) (bytes : List Byte) (s : State) (hlen : bytes.length ≤ 65536)
    (addr : Word) :
    (inspectWriteRange start bytes s).readByte addr =
      if (addr - start).toNat < bytes.length ∧ s.config.inRam addr = true then bytes.getD (addr - start).toNat 0x00
      else s.readByte addr := by
  induction bytes generalizing start s with
  | nil => simp [inspectWriteRange]
  | cons v rest ih =>
    have hrest : rest.length + 1 ≤ 65536 := hlen
    rw [inspectWriteRange, ih _ _ (by omega), readByte_writeByte, writeByte_config]
    by_cases hstart : addr = start
    · subst hstart
      have hlast : (addr - (addr + 1)).toNat = 65535 := by bv_omega
      have hfirst : (addr - addr).toNat = 0 := by simp
      rw [hlast, hfirst, if_neg (by omega)]
      simp
    · have hnext : (addr - start).toNat = (addr - (start + 1)).toNat + 1 := by bv_omega
      rw [hnext]
      simp [hstart]

/-- R300: a range read is the bytes at its addresses, in order. -/
theorem inspectReadRange_eq_map (start : Word) (n : Nat) (s : State) :
    inspectReadRange start n s = (List.range n).map fun k => s.readByte (start + BitVec.ofNat 16 k) := by
  induction n generalizing start with
  | zero => rfl
  | succ n ih =>
    rw [inspectReadRange, ih, List.range_succ_eq_map, List.map_cons, List.map_map]
    congr 1
    · simp
    · apply List.map_congr_left
      intro k _
      have hstep : start + 1 + BitVec.ofNat 16 k = start + BitVec.ofNat 16 (k + 1) := by bv_omega
      rw [hstep]
      rfl

/-! ## Every move -/

/-- R302: what no move but Reset writes; and the moves that alone write the NMI latch, the queue and I. -/
theorem apply_frame {m : HostMove} {s t : State} (h : m.apply s = some t) (hreset : m ≠ .reset) :
    t.halted = s.halted ∧ t.nmiTriggered = s.nmiTriggered ∧ t.config.cyc = s.config.cyc ∧
    ((∀ r, m ≠ .request r) → t.nmiPending = s.nmiPending ∧ t.pendingMaskable = s.pendingMaskable) ∧
    ((∀ v, m ≠ .setVectorRegister v) → t.i = s.i) := by
  cases m with
  | reset => exact absurd rfl hreset
  | configure romSize ramSize ramLo ramHi spReset =>
    cases h
    exact ⟨rfl, rfl, rfl, fun _ => ⟨rfl, rfl⟩, fun _ => rfl⟩
  | loadRom bytes =>
    obtain ⟨-, rfl⟩ := loadRom_eq bytes s t h
    exact ⟨rfl, rfl, rfl, fun _ => ⟨rfl, rfl⟩, fun _ => rfl⟩
  | request r =>
    cases h
    refine ⟨?_, ?_, ?_, fun hr => absurd rfl (hr r), fun _ => ?_⟩ <;> (unfold requestInterrupt; split <;> rfl)
  | setVectorRegister v =>
    cases h
    exact ⟨rfl, rfl, rfl, fun _ => ⟨rfl, rfl⟩, fun hv => absurd rfl (hv v)⟩
  | setInterruptMode m =>
    cases h
    exact ⟨rfl, rfl, rfl, fun _ => ⟨rfl, rfl⟩, fun _ => rfl⟩
  | writeReg r v =>
    cases h
    rw [inspectWrite_eq]
    exact ⟨rfl, rfl, rfl, fun _ => ⟨rfl, rfl⟩, fun _ => rfl⟩
  | writeMem start bytes =>
    cases h
    rw [inspectWriteRange_eq]
    exact ⟨rfl, rfl, rfl, fun _ => ⟨rfl, rfl⟩, fun _ => rfl⟩

/-- Settles O60: each move by its rule; that no other move writes I is a clause of the moves' frame. -/
theorem hostMovesWriteWhatTheyName : Obligations.HostMovesWriteWhatTheyName := by
  intro s
  refine ⟨fun r v => ?_, fun v => rfl, fun m => rfl, fun romSize ramSize ramLo ramHi spReset => rfl,
    fun start bytes => ?_, fun start n => inspectReadRange_eq_map start n s, fun m t h hreset hvector => ?_⟩
  · exact ⟨_, rfl, inspectRead_inspectWrite_same r v s, fun q hq => inspectRead_inspectWrite_other hq v s,
      inspectWrite_eq r v s⟩
  · exact ⟨_, rfl, inspectWriteRange_eq start bytes s, readByte_inspectWriteRange start bytes s⟩
  · obtain ⟨-, -, -, -, hi⟩ := apply_frame h hreset
    exact hi hvector

/-- Settles O59: the image's cells read as the image, and are in canonical form when it fits. -/
theorem loadRomFillsMemory : Obligations.LoadRomFillsMemory := by
  intro bytes s
  constructor
  · intro hfits
    refine ⟨_, if_pos hfits, fun addr => ?_, Memory.wf_ofImage bytes 0 (by omega), rfl⟩
    exact (Memory.read_ofImage bytes 0 addr.toNat).trans (if_pos (Nat.zero_le _))
  · intro hlong
    exact if_neg (by omega)

/-! ## Reset and the invariant -/

/-- Settles O36: the engine's four writes, then the controller's eight. -/
theorem resetWritesOnlyItsList : Obligations.ResetWritesOnlyItsList := fun _ => rfl

/-- Settles O37: each clause is a field of one closed state, and a memory that lists no cell reads zero. -/
theorem resetStateIsEngineReset : Obligations.ResetStateIsEngineReset :=
  ⟨rfl, rfl, rfl, rfl, rfl, rfl, rfl, rfl, rfl, rfl, rfl, rfl, rfl, fun _ => rfl, rfl⟩

/-- R320: Reset leaves the queue empty and no NMI in service, whatever they were; so memory and the costs alone matter. -/
theorem inv_engineReset {s : State} (hmem : s.mem.wf = true) (hcosts : s.config.wf = true) : (engineReset s).Inv := by
  rw [resetWritesOnlyItsList s]
  exact ⟨hmem, rfl, rfl, hcosts⟩

/-- Settles O46: `State.reset` is Reset of the power-on state, whose memory lists nothing. -/
theorem invariantHoldsAfterReset : Obligations.InvariantHoldsAfterReset := by
  refine ⟨?_, fun s => inv_engineReset⟩
  obtain ⟨hreset, -⟩ := resetStateIsEngineReset
  rw [hreset]
  exact inv_engineReset rfl (by decide)

/-- R63: a range written keeps memory in canonical form. -/
theorem inspectWriteRange_wf (start : Word) (bytes : List Byte) (s : State) (h : s.mem.wf = true) :
    (inspectWriteRange start bytes s).mem.wf = true := by
  induction bytes generalizing start s with
  | nil => exact h
  | cons v rest ih => exact ih (start + 1) (s.writeByte start v) (writeByte_wf s start v h)

/-- Settles O47: memory is written by a range or an image, both in canonical form, and the queue by a request, in its
place. -/
theorem everyHostMoveKeepsInvariant : Obligations.EveryHostMoveKeepsInvariant := by
  rintro m s t ⟨hmem, hqueue, hidle, hcosts⟩ h
  cases m with
  | configure romSize ramSize ramLo ramHi spReset => cases h; exact ⟨hmem, hqueue, hidle, hcosts⟩
  | loadRom bytes =>
    obtain ⟨hfits, rfl⟩ := loadRom_eq bytes s t h
    exact ⟨Memory.wf_ofImage bytes 0 (by omega), hqueue, hidle, hcosts⟩
  | reset => cases h; exact inv_engineReset hmem hcosts
  | request r =>
    cases h
    cases htype : r.type with
    | nonMaskable => rw [Controller.requestInterrupt_nonMaskable htype]; exact ⟨hmem, hqueue, hidle, hcosts⟩
    | maskable =>
      rw [Controller.requestInterrupt_maskable htype]
      exact ⟨hmem, queueWf_enqueue _ r hqueue htype, hidle, hcosts⟩
  | setVectorRegister v => cases h; exact ⟨hmem, hqueue, hidle, hcosts⟩
  | setInterruptMode mode => cases h; exact ⟨hmem, hqueue, hidle, hcosts⟩
  | writeReg r v => cases h; rw [inspectWrite_eq]; exact ⟨hmem, hqueue, hidle, hcosts⟩
  | writeMem start bytes =>
    cases h
    have hwf := inspectWriteRange_wf start bytes s hmem
    rw [inspectWriteRange_eq]
    exact ⟨hwf, hqueue, hidle, hcosts⟩

end Sys2Proof.Proofs.HostMoves
end

section
/-!
PROOFS. Steps (40_engine_step R120, 60_exceptions section 3): when a step runs an instruction, when it fails, what
every completed step keeps, and what no step reads.
-/

namespace Sys2Proof.Proofs.Steps

open Sys2Proof.Machine
open Sys2Proof.Proofs.Meanings

/-! ## A step that fetches -/

/-- Settles O25: fetching is decoding the bytes at PC, and leaves the state the instruction runs from. -/
theorem stepRunsDecodedInstruction : Obligations.StepRunsDecodedInstruction := by
  intro s i rest hfault hquiet hhalted hdecode _
  obtain ⟨hok, -, -, -⟩ := fetchDecode_eq (beforeInstruction s)
  rw [step_fetch s hfault hquiet hhalted, hok i rest hdecode, fetched_eq]

/-- R281: a first byte with no decode entry fails the step. -/
theorem step_of_unimplementedMain {s : State} {op : Byte} (hfault : s.fault = none) (hquiet : s.quiet)
    (hhalted : s.halted = false) (hdecode : decode s.bytesAtPC = .unimplementedMain op) :
    step s = .fault (.unimplementedOpcode s.pc op none) := by
  obtain ⟨-, hmain, -, -⟩ := fetchDecode_eq (beforeInstruction s)
  rw [step_fetch s hfault hquiet hhalted, hmain op hdecode]
  rfl

/-- R281: a byte after 0xED with no decode entry fails the step. -/
theorem step_of_unimplementedEd {s : State} {op2 : Byte} (hfault : s.fault = none) (hquiet : s.quiet)
    (hhalted : s.halted = false) (hdecode : decode s.bytesAtPC = .unimplementedEd op2) :
    step s = .fault (.unimplementedOpcode s.pc 0xED (some op2)) := by
  obtain ⟨-, -, hed, -⟩ := fetchDecode_eq (beforeInstruction s)
  rw [step_fetch s hfault hquiet hhalted, hed op2 hdecode]
  rfl

/-- What is decoded at PC: an instruction, or a byte or two with no decode entry; three bytes are never too few. -/
theorem decode_bytesAtPC_cases (s : State) :
    (∃ i rest, decode s.bytesAtPC = .ok i rest) ∨ (∃ op, decode s.bytesAtPC = .unimplementedMain op) ∨
    (∃ op2, decode s.bytesAtPC = .unimplementedEd op2) := by
  obtain ⟨-, -, -, htrunc⟩ := fetchDecode_eq s
  cases h : decode s.bytesAtPC with
  | ok i rest => exact .inl ⟨i, rest, rfl⟩
  | unimplementedMain op => exact .inr (.inl ⟨op, rfl⟩)
  | unimplementedEd op2 => exact .inr (.inr ⟨op2, rfl⟩)
  | truncated => exact absurd h htrunc

/-- R280: no failure is latched, the step comes to fetching, and the bytes at PC have no decode entry; `r` names them. -/
def FailsToDecode (s : State) (r : Fault) : Prop :=
  s.fault = none ∧ s.quiet ∧ s.halted = false ∧
    ((∃ op, decode s.bytesAtPC = .unimplementedMain op ∧ r = .unimplementedOpcode s.pc op none) ∨
     (∃ op2, decode s.bytesAtPC = .unimplementedEd op2 ∧ r = .unimplementedOpcode s.pc 0xED (some op2)))

/-- R120, R284: a step answers the latched failure, fails to decode, or goes on. -/
theorem step_cases (s : State) :
    (∃ r, s.fault = some r ∧ step s = .fault r) ∨ (∃ r, FailsToDecode s r ∧ step s = .fault r) ∨
    ∃ t, step s = .next t := by
  cases hfault : s.fault with
  | some r => exact .inl ⟨r, rfl, step_latched s r hfault⟩
  | none =>
    right
    rcases takes_cases s with hnmi | ⟨r, hmask⟩ | hquiet
    · exact .inr ⟨_, step_nmi s hfault hnmi⟩
    · exact .inr ⟨_, step_maskable s r hfault hmask⟩
    · cases hhalted : s.halted with
      | true => exact .inr ⟨_, step_halted s hfault hquiet hhalted⟩
      | false =>
        rcases decode_bytesAtPC_cases s with ⟨i, rest, hok⟩ | ⟨op, hmain⟩ | ⟨op2, hed⟩
        · rw [stepRunsDecodedInstruction s i rest hfault hquiet hhalted hok rfl]
          exact .inr (everyInstructionCompletes i (s.fetched i.length))
        · exact .inl ⟨_, ⟨hfault, hquiet, hhalted, .inl ⟨op, hmain, rfl⟩⟩,
            step_of_unimplementedMain hfault hquiet hhalted hmain⟩
        · exact .inl ⟨_, ⟨hfault, hquiet, hhalted, .inr ⟨op2, hed, rfl⟩⟩,
            step_of_unimplementedEd hfault hquiet hhalted hed⟩

/-- R280: a step that fails has a failure latched or nothing to decode. -/
theorem step_eq_fault_iff (s : State) (r : Fault) :
    step s = .fault r ↔ s.fault = some r ∨ FailsToDecode s r := by
  constructor
  · intro h
    rcases step_cases s with ⟨r', hlatched, hs⟩ | ⟨r', hfails, hs⟩ | ⟨t, hs⟩
    · cases hs.symm.trans h; exact .inl hlatched
    · cases hs.symm.trans h; exact .inr hfails
    · cases hs.symm.trans h
  · rintro (hlatched | ⟨hfault, hquiet, hhalted, ⟨op, hmain, rfl⟩ | ⟨op2, hed, rfl⟩⟩)
    · exact step_latched s r hlatched
    · exact step_of_unimplementedMain hfault hquiet hhalted hmain
    · exact step_of_unimplementedEd hfault hquiet hhalted hed

/-- R284: no step is refused. -/
theorem step_ne_refused (s : State) (r : Refusal) : step s ≠ .refused r := by
  intro h
  rcases step_cases s with ⟨_, -, hs⟩ | ⟨_, -, hs⟩ | ⟨_, hs⟩ <;> cases hs.symm.trans h

/-- Settles O27: the two ways to fail, each with its record, and that a step which does neither goes on. -/
theorem stepFailsExactlyOnUnimplementedOpcode : Obligations.StepFailsExactlyOnUnimplementedOpcode :=
  fun s => ⟨step_eq_fault_iff s, step_ne_refused s⟩

/-! ## What an interrupt entry leaves -/

@[simp] theorem handleInterrupt_fields (r : InterruptRequest) (s : State) :
    (handleInterrupt r s).f = s.f ∧ (handleInterrupt r s).sp = s.sp - 2 ∧
    (handleInterrupt r s).mem = (s.push16 s.pc).mem ∧ (handleInterrupt r s).halted = false ∧
    (handleInterrupt r s).iff1 = false ∧ (handleInterrupt r s).iff2 = s.iff1 ∧
    (handleInterrupt r s).eiDelay = s.eiDelay ∧ (handleInterrupt r s).nmiPending = s.nmiPending ∧
    (handleInterrupt r s).nmiTriggered = (if r.type = .nonMaskable then false else s.nmiTriggered) ∧
    (handleInterrupt r s).pendingMaskable = s.pendingMaskable ∧
    (handleInterrupt r s).cycles = s.cycles + BitVec.ofNat 64 (entryCost r s) ∧
    (handleInterrupt r s).config = s.config := by
  rw [handleInterrupt_eq]
  simp

theorem handleInterrupt_config (r : InterruptRequest) (s : State) : (handleInterrupt r s).config = s.config := by
  simp only [handleInterrupt_fields]

/-- R31, R265: an entry's cost is one of the table's. -/
theorem entryCost_mem (r : InterruptRequest) (s : State) : entryCost r s ∈ s.config.cyc.costs := by
  unfold entryCost
  split
  · simp [Cyc.costs]
  · split <;> simp [Cyc.costs]

/-- `Push16` stores the same bytes wherever SP, memory and the RAM window are the same. -/
theorem push16_mem_congr {s u : State} (hsp : u.sp = s.sp) (hmem : u.mem = s.mem) (hconfig : u.config = s.config)
    (v : Word) : (u.push16 v).mem = (s.push16 v).mem := by
  rw [push16_mem, push16_mem, hsp, hmem, hconfig]

/-! ## What every completed step keeps -/

section
variable {s t : State}

/-- R64: a step leaves the parameters, and memory as it was or with one word pushed. -/
theorem step_config_mem (h : step s = .next t) :
    t.config = s.config ∧ (t.mem = s.mem ∨ ∃ v, t.mem = (s.push16 v).mem) := by
  obtain ⟨-, ⟨-, rfl⟩ | ⟨r, -, rfl⟩ | ⟨-, -, rfl⟩ | ⟨-, -, i, rest, -, hexec⟩⟩ := step_next_cases s t h
  · refine ⟨by simp, .inr ⟨s.pc, ?_⟩⟩
    simp only [handleInterrupt_fields]
    apply push16_mem_congr <;> rfl
  · refine ⟨by simp, .inr ⟨s.pc, ?_⟩⟩
    simp only [handleInterrupt_fields]
    apply push16_mem_congr <;> rfl
  · exact ⟨rfl, .inl rfl⟩
  · obtain ⟨u, cost, he, rfl⟩ := effect_of_exec hexec
    obtain ⟨-, -, -, -, -, -, hconfig, -⟩ := effect_frame he
    refine ⟨hconfig, ?_⟩
    obtain hmem | ⟨-, v, hmem⟩ := effect_mem he
    · exact .inl hmem
    · refine .inr ⟨v, hmem.trans ?_⟩
      apply push16_mem_congr <;> rfl

/-- R47, R48, R49: a step leaves the queue or takes its head, and never sets `nmiTriggered`. -/
theorem step_queue (h : step s = .next t) (hidle : s.nmiTriggered = false) :
    t.nmiTriggered = false ∧ (t.pendingMaskable = s.pendingMaskable ∨ t.pendingMaskable = s.pendingMaskable.tail) := by
  obtain ⟨-, ⟨-, rfl⟩ | ⟨r, -, rfl⟩ | ⟨-, -, rfl⟩ | ⟨-, -, i, rest, -, hexec⟩⟩ := step_next_cases s t h
  · simp [nmiRequest]
  · simp [hidle]
  · exact ⟨hidle, .inl rfl⟩
  · obtain ⟨u, cost, he, rfl⟩ := effect_of_exec hexec
    obtain ⟨-, -, htrig, hqueue, -⟩ := effect_frame he
    exact ⟨htrig.trans hidle, .inl hqueue⟩

/-- Settles O45: memory is as it was or has a word pushed, the queue is as it was or has lost its head, and the costs are in
the parameters, which no step writes. -/
theorem everyStepKeepsInvariant : Obligations.EveryStepKeepsInvariant := by
  rintro s t ⟨hmem, hqueue, hidle, hcosts⟩ h
  obtain ⟨hconfig, hmem'⟩ := step_config_mem h
  obtain ⟨hidle', hqueue'⟩ := step_queue h hidle
  refine ⟨?_, ?_, hidle', hconfig ▸ hcosts⟩
  · obtain hkept | ⟨v, hpushed⟩ := hmem'
    · rw [hkept]; exact hmem
    · rw [hpushed]; exact push16_wf s v hmem
  · obtain hkept | htaken := hqueue'
    · rw [hkept]; exact hqueue
    · rw [htaken]; exact queueWf_tail _ hqueue

/-- R64: a byte that no push changes is changed by no step. -/
theorem step_readByte (h : step s = .next t) {addr : Word}
    (hpush : ∀ v, (s.push16 v).readByte addr = s.readByte addr) : t.readByte addr = s.readByte addr := by
  obtain ⟨-, hkept | ⟨v, hpushed⟩⟩ := step_config_mem h
  · simp only [State.readByte, hkept]
  · rw [← hpush v]
    simp only [State.readByte, hpushed]

end

/-- R63: a push stores nothing outside the RAM window. -/
theorem readByte_push16_of_not_inRam {s : State} {addr : Word} (haddr : s.config.inRam addr = false) (v : Word) :
    (s.push16 v).readByte addr = s.readByte addr := by
  obtain ⟨hhigh, hlow, hother⟩ := push16_pushed s v
  by_cases h1 : addr = s.sp - 1
  · subst h1
    exact hhigh.trans (if_neg (Bool.eq_false_iff.mp haddr))
  · by_cases h2 : addr = s.sp - 2
    · subst h2
      exact hlow.trans (if_neg (Bool.eq_false_iff.mp haddr))
    · exact hother addr h1 h2

/-- R63: nor does the host's write of a range. -/
theorem readByte_inspectWriteRange_of_not_inRam {s : State} {addr : Word} (haddr : s.config.inRam addr = false)
    (start : Word) (bytes : List Byte) : (inspectWriteRange start bytes s).readByte addr = s.readByte addr := by
  induction bytes generalizing start s with
  | nil => rfl
  | cons v rest ih =>
    rw [inspectWriteRange, ih (by rw [HostMoves.writeByte_config]; exact haddr), readByte_writeByte]
    refine if_neg ?_
    rintro ⟨rfl, hin⟩
    exact Bool.false_ne_true (haddr.symm.trans hin)

/-- Settles O48: all that a step can store is a word pushed, and a push is subject to the window byte by byte. -/
theorem bytesOutsideRamWindowNeverChange : Obligations.BytesOutsideRamWindowNeverChange := by
  intro s addr haddr
  refine ⟨fun t h => ?_, readByte_inspectWriteRange_of_not_inRam haddr⟩
  obtain ⟨hconfig, -⟩ := step_config_mem h
  exact ⟨hconfig, step_readByte h (readByte_push16_of_not_inRam haddr)⟩

/-- Settles O49: a push reaches its two addresses alone, and of the instructions PUSH and RST alone push. -/
theorem onlyStackWritesStore : Obligations.OnlyStackWritesStore := by
  refine ⟨fun s t addr h h1 h2 => step_readByte h fun v => ?_, fun i s t hexec hpush hrst addr => ?_⟩
  · obtain ⟨-, -, hother⟩ := push16_pushed s v
    exact hother addr h1 h2
  · obtain ⟨u, cost, he, rfl⟩ := effect_of_exec hexec
    obtain hmem | ⟨⟨qq, rfl⟩ | ⟨p, rfl⟩, -⟩ := effect_mem he
    · exact congrArg (Memory.read · addr.toNat) hmem
    · exact absurd rfl (hpush qq)
    · exact absurd rfl (hrst p)

/-- R31: a completed step adds one cost of the table. -/
theorem step_cycles {s t : State} (h : step s = .next t) :
    ∃ n ∈ s.config.cyc.costs, t.cycles = s.cycles + BitVec.ofNat 64 n := by
  obtain ⟨-, ⟨-, rfl⟩ | ⟨r, -, rfl⟩ | ⟨-, -, rfl⟩ | ⟨-, -, i, rest, -, hexec⟩⟩ := step_next_cases s t h
  · exact ⟨_, entryCost_mem nmiRequest s, congrArg State.cycles (handleInterrupt_eq _ _)⟩
  · exact ⟨_, entryCost_mem r s, congrArg State.cycles (handleInterrupt_eq _ _)⟩
  · exact ⟨s.config.cyc.haltIdle, by simp [Cyc.costs], rfl⟩
  · obtain ⟨u, cost, he, rfl⟩ := effect_of_exec hexec
    obtain ⟨-, -, -, -, -, -, -, -, -, hcycles⟩ := effect_frame he
    exact ⟨_, effect_cost he s.config.cyc, congrArg (· + BitVec.ofNat 64 (cost s.config.cyc)) hcycles⟩

/-- Settles O50: the cost is an entry of the table, and a table is well-formed when all its entries are positive. -/
theorem everyStepAddsOneCost : Obligations.EveryStepAddsOneCost := by
  intro s t h
  obtain ⟨n, hn, hcycles⟩ := step_cycles h
  refine ⟨n, hn, hcycles, fun hwf => ?_⟩
  exact of_decide_eq_true (List.all_eq_true.mp hwf n hn)

/-- Settles O51: an entry and an idle step leave F; of the instructions only POP AF writes another bit than the two
flags. -/
theorem stepsKeepReservedFlagBitsExceptPopAF : Obligations.StepsKeepReservedFlagBitsExceptPopAF := by
  intro s t h hpop
  obtain ⟨-, ⟨-, rfl⟩ | ⟨r, -, rfl⟩ | ⟨-, -, rfl⟩ | ⟨hquiet, hrun, i, rest, hdecode, hexec⟩⟩ := step_next_cases s t h
  · simp
  · simp
  · exact fun _ _ _ => rfl
  · obtain ⟨u, cost, he, rfl⟩ := effect_of_exec hexec
    obtain rfl | hkept := effect_reserved he
    · exact absurd hdecode (hpop rest hquiet hrun)
    · exact hkept

/-- Settles O53: an entry clears Halted and an idle step keeps it; an instruction that ends with it set is HALT, and the
frame of the host's moves holds it. -/
theorem haltedIsSetByHaltAndClearedByEntry : Obligations.HaltedIsSetByHaltAndClearedByEntry := by
  refine ⟨fun s t h => ?_, fun s => rfl, fun m s t h hreset => ?_⟩
  · obtain ⟨-, ⟨hnmi, rfl⟩ | ⟨r, hmask, rfl⟩ | ⟨hquiet, hhalted, rfl⟩ | ⟨hquiet, hrun, i, rest, hdecode, hexec⟩⟩ :=
      step_next_cases s t h
    · have hnot := not_quiet_of_takesNmi s hnmi
      simp [hnot]
    · have hnot := not_quiet_of_takesMaskable s r hmask
      simp [hnot]
    · exact ⟨fun hnot => absurd hquiet hnot, fun _ _ => ⟨hhalted, rfl⟩,
        fun _ hrun => absurd (hhalted.symm.trans hrun) nofun⟩
    · refine ⟨fun hnot => absurd hquiet hnot, fun _ hhalted => absurd (hhalted.symm.trans hrun) nofun, fun _ _ => ?_⟩
      constructor
      · intro hhalted
        obtain ⟨u, cost, he, rfl⟩ := effect_of_exec hexec
        obtain rfl | hkept := effect_halted he
        · exact ⟨rest, hdecode⟩
        · exact absurd (hhalted.symm.trans (hkept.trans hrun)) nofun
      · rintro ⟨rest', hhalt⟩
        cases hdecode.symm.trans hhalt
        rw [EngineStep.exec_halt] at hexec
        cases hexec
        rfl
  · obtain ⟨hhalted, -⟩ := HostMoves.apply_frame h hreset
    exact hhalted

/-- R225, R253: the delay is armed by EI alone. -/
theorem eiDelay_of_step {s t : State} (h : step s = .next t) (hdelay : t.eiDelay ≠ 0) :
    s.quiet ∧ s.halted = false ∧ ∃ rest, decode s.bytesAtPC = .ok .ei rest := by
  obtain ⟨-, ⟨-, rfl⟩ | ⟨r, -, rfl⟩ | ⟨-, -, rfl⟩ | ⟨hquiet, hrun, i, rest, hdecode, hexec⟩⟩ := step_next_cases s t h
  · simp at hdelay
  · simp at hdelay
  · simp [haltIdle, beforeInstruction] at hdelay
  · refine ⟨hquiet, hrun, rest, ?_⟩
    obtain ⟨u, cost, he, rfl⟩ := effect_of_exec hexec
    obtain rfl | ⟨-, hcleared⟩ | ⟨-, hkept, -⟩ := effect_enable he
    · exact hdecode
    · exact absurd hcleared hdelay
    · exact absurd hkept hdelay

/-- Settles O54: EI leaves the delay at 1, and a request is taken only with the delay at 0. -/
theorem eiShadowLastsOneStep : Obligations.EiShadowLastsOneStep := by
  refine ⟨fun s t h => ?_, fun s t => eiDelay_of_step⟩
  rw [InterruptControl.exec_ei, InterruptControl.enableInterrupts_addCycles] at h
  cases h
  exact ⟨by simp [State.takesMaskable], rfl, rfl⟩

/-- Settles O56: the entry saves `iff1`, which is false, in `iff2`; either return copies `iff2` and leaves it. -/
theorem nmiInsideHandlerLosesEnableState : Obligations.NmiInsideHandlerLosesEnableState := by
  intro s t hfault hnmi hiff1 h
  rw [step_nmi s hfault hnmi] at h
  have hiff2 : t.iff2 = false := by
    rw [← Host.Outcome.next.inj h]
    simp [hiff1]
  refine ⟨hiff2, fun i hi u hu v hv => ?_⟩
  have hsaved : u.iff2 = false := hu.trans hiff2
  have hreturn (cost : Nat) (hv : v = (returnFromInterrupt (popPC u)).addCycles cost) :
      v.iff1 = false ∧ v.iff2 = false := by
    rw [hv]
    simp [hsaved]
  obtain rfl | rfl := hi
  · rw [InterruptControl.exec_reti] at hv
    exact hreturn _ (Host.Outcome.next.inj hv).symm
  · rw [InterruptControl.exec_retn] at hv
    exact hreturn _ (Host.Outcome.next.inj hv).symm

/-- R47: the latch is cleared when the NMI is selected, and no step sets it. -/
theorem step_nmiPending {s t : State} (h : step s = .next t) : t.nmiPending = (s.nmiPending && !s.takesNmi) := by
  obtain ⟨-, ⟨hnmi, rfl⟩ | ⟨r, hmask, rfl⟩ | ⟨hquiet, -, rfl⟩ | ⟨hquiet, -, i, rest, -, hexec⟩⟩ :=
    step_next_cases s t h
  · simp [hnmi]
  · obtain ⟨-, -, -, hnmi⟩ := takesMaskable_head s r hmask
    simp [hnmi]
  · obtain ⟨hnmi, -⟩ := hquiet
    simp [hnmi, haltIdle, beforeInstruction]
  · obtain ⟨hnmi, -⟩ := hquiet
    obtain ⟨u, cost, he, rfl⟩ := effect_of_exec hexec
    obtain ⟨-, hkept, -⟩ := effect_frame he
    exact hkept.trans (by simp [hnmi, State.fetched])

/-- Settles O35: every NMI request is one write of `true`; a step's write of the latch is the selection's, and the frame of
the other moves holds it. -/
theorem nmiLatchCoalesces : Obligations.NmiLatchCoalesces := by
  intro s
  refine ⟨fun r r2 htype htype2 => ?_, fun r htype => ?_, fun t => step_nmiPending, rfl,
    fun m t h hreset hrequest => ?_⟩
  · simp only [Controller.requestInterrupt_nonMaskable htype, Controller.requestInterrupt_nonMaskable htype2, and_self]
  · rw [Controller.requestInterrupt_maskable htype]
  · obtain ⟨-, -, -, hlatch, -⟩ := HostMoves.apply_frame h hreset
    obtain ⟨hpending, -⟩ := hlatch hrequest
    exact hpending

/-! ## The count and the cycle table -/

/-- R335: an entry goes the same way with another count and another table. -/
theorem handleInterrupt_withUnread (r : InterruptRequest) (s : State) (count : BitVec 64) (table : Cyc) :
    ∃ count', handleInterrupt r (withUnread s s.f count table) =
      withUnread (handleInterrupt r s) (handleInterrupt r s).f count' table := by
  rw [handleInterrupt_eq, handleInterrupt_eq, push16_withUnread]
  exact ⟨_, rfl⟩

/-- R335: so does an instruction. -/
theorem exec_withUnread {i : Instr} {s t : State} (h : exec i s = .next t) (count : BitVec 64) (table : Cyc) :
    ∃ count', exec i (withUnread s s.f count table) = .next (withUnread t t.f count' table) := by
  obtain ⟨u, cost, he, rfl⟩ := effect_of_exec h
  obtain ⟨f', he', -, hf'⟩ := effect_withUnread he s.f count table ⟨rfl, rfl⟩ (fun _ => rfl)
  rw [hf' rfl] at he'
  exact ⟨_, exec_of_effect he'⟩

/-- R335: and a whole step that is completed. -/
theorem step_withUnread {s t : State} (h : step s = .next t) (count : BitVec 64) (table : Cyc) :
    ∃ count', step (withUnread s s.f count table) = .next (withUnread t t.f count' table) := by
  obtain ⟨hfault, ⟨hnmi, rfl⟩ | ⟨r, hmask, rfl⟩ | ⟨hquiet, hhalted, rfl⟩ | ⟨hquiet, hrun, i, rest, hdecode, hexec⟩⟩ :=
    step_next_cases s t h
  · obtain ⟨count', hentry⟩ := handleInterrupt_withUnread nmiRequest
      { s with samplePoint := decide (s.eiDelay = 0), eiDelay := 0, nmiTriggered := true, nmiPending := false }
      count table
    rw [step_nmi (withUnread s s.f count table) hfault hnmi]
    exact ⟨count', congrArg Host.Outcome.next hentry⟩
  · obtain ⟨count', hentry⟩ := handleInterrupt_withUnread r
      { s with samplePoint := true, eiDelay := 0, pendingMaskable := s.pendingMaskable.tail } count table
    rw [step_maskable (withUnread s s.f count table) r hfault hmask]
    exact ⟨count', congrArg Host.Outcome.next hentry⟩
  · rw [step_halted (withUnread s s.f count table) hfault hquiet hhalted]
    exact ⟨_, rfl⟩
  · rw [stepRunsDecodedInstruction (withUnread s s.f count table) i rest hfault hquiet hrun hdecode rfl]
    exact exec_withUnread hexec count table

/-- Settles O58: the second machine is `withUnread` of the first, with F as it was; whether and how a step fails is read
off fields that the two share. -/
theorem cyclesInfluenceNothingElse : Obligations.CyclesInfluenceNothingElse := by
  intro s count table s2
  refine ⟨fun t h => ?_, fun r h => ?_⟩
  · obtain ⟨count', h2⟩ := step_withUnread h count table
    exact ⟨_, h2, rfl⟩
  · rw [step_eq_fault_iff] at h ⊢
    exact h

end Sys2Proof.Proofs.Steps
end

section
/-!
PROOFS. Word accesses and the stack (20_memory section 2, 46_stack R217), and the interrupt entry with its return
(60_exceptions section 2, R264 to R267).
-/

namespace Sys2Proof.Proofs.Entry

open Sys2Proof.Machine

/-! ## Words in memory and on the stack -/

/-- R66: the byte at an address after a word write, as the second byte write leaves it. -/
theorem readByte_writeWord (s : State) (addr : Word) (v : Word) (x : Word) :
    (s.writeWord addr v).readByte x =
      if x = addr + 1 ∧ s.config.inRam (addr + 1) = true then hiByte v
      else if x = addr ∧ s.config.inRam addr = true then loByte v else s.readByte x := by
  rw [State.writeWord, readByte_writeByte, readByte_writeByte, HostMoves.writeByte_config]

/-- Settles O39: the two byte writes are to different addresses, so each is kept or dropped by its own address. -/
theorem wordAccessesAreTwoByteAccesses : Obligations.WordAccessesAreTwoByteAccesses := by
  intro s addr v
  have hne := add_one_ne addr
  refine ⟨rfl, ?_, ?_, fun x hlow hhigh => ?_⟩
  · rw [readByte_writeWord, if_neg fun h => hne h.1.symm]
    exact if_congr (and_iff_right rfl) rfl rfl
  · rw [readByte_writeWord, if_neg (c := _ ∧ _) (fun h => hne h.1)]
    exact if_congr (and_iff_right rfl) rfl rfl
  · rw [readByte_writeWord, if_neg fun h => hhigh h.1, if_neg fun h => hlow h.1]

/-- R216, R217: two bytes pushed inside the RAM window are the word that a pop reads. -/
theorem wordOf_pushed {s t : State} {v : Word} (h : s.pushed t v) (hhigh : s.config.inRam (s.sp - 1) = true)
    (hlow : s.config.inRam (s.sp - 2) = true) :
    wordOf (t.readByte (s.sp - 2 + 1)) (t.readByte (s.sp - 2)) = v := by
  obtain ⟨hreadHigh, hreadLow, -⟩ := h
  rw [sub_two_add_one, hreadHigh, hreadLow, if_pos hhigh, if_pos hlow, wordOf_hiByte_loByte]

/-- Settles O40: the pop reads the two bytes the push stored, and adds the two to SP that it took off. -/
theorem popAfterPushReturnsWord : Obligations.PopAfterPushReturnsWord := by
  intro s v hhigh hlow
  have hsp : (s.push16 v).sp = s.sp - 2 := by rw [push16_eq]; rfl
  rw [pop16_eq, hsp, sub_two_add_two]
  refine ⟨wordOf_pushed (push16_pushed s v) hhigh hlow, ?_⟩
  rw [push16_eq]
  rfl

/-! ## The entry -/

/-- R216, R264: an entry pushes the PC of the next instruction. -/
theorem handleInterrupt_pushed (r : InterruptRequest) (s : State) : s.pushed (handleInterrupt r s) s.pc := by
  have hread (x : Word) : (handleInterrupt r s).readByte x = (s.push16 s.pc).readByte x := by
    simp only [State.readByte, Steps.handleInterrupt_fields]
  simpa only [State.pushed, hread] using push16_pushed s s.pc

/-- R266, R267: the pop of a return reads the PC that the entry pushed and takes SP back, and the enable state comes
back from `iff2`. -/
theorem return_handleInterrupt {r : InterruptRequest} {s : State} (hhigh : s.config.inRam (s.sp - 1) = true)
    (hlow : s.config.inRam (s.sp - 2) = true) (cost : Nat) :
    (returnFromInterrupt (popPC (handleInterrupt r s))).addCycles cost =
      { s with
        halted := false, iff2 := s.iff1, mem := (s.push16 s.pc).mem
        nmiTriggered := if r.type = .nonMaskable then false else s.nmiTriggered
        cycles := (handleInterrupt r s).cycles + BitVec.ofNat 64 cost } := by
  have hsp : (handleInterrupt r s).sp = s.sp - 2 := by simp only [Steps.handleInterrupt_fields]
  have hpc : (handleInterrupt r s).readByte (s.sp - 2 + 1) ++ (handleInterrupt r s).readByte (s.sp - 2) = s.pc :=
    wordOf_pushed (handleInterrupt_pushed r s) hhigh hlow
  rw [InterruptControl.returnFromInterrupt_popPC_addCycles, hsp, hpc, sub_two_add_two, handleInterrupt_eq]

/-- Settles O55: both returns are one restoration, at their own cost. -/
theorem returnFromHandlerResumesProgram : Obligations.ReturnFromHandlerResumesProgram := by
  intro r s hhigh hlow i cost hi
  have hexec : exec i (handleInterrupt r s) =
      .next ((returnFromInterrupt (popPC (handleInterrupt r s))).addCycles cost) := by
    obtain ⟨rfl, rfl⟩ | ⟨rfl, rfl⟩ := hi
    · rw [InterruptControl.exec_reti, Steps.handleInterrupt_config]
    · rw [InterruptControl.exec_retn, Steps.handleInterrupt_config]
  rw [return_handleInterrupt hhigh hlow] at hexec
  exact ⟨_, hexec, push16_pushed s s.pc, rfl⟩

section
variable {r : InterruptRequest} {s : State} (htype : r.type = .maskable)

include htype

/-- R264: a maskable request in Mode0 goes where its byte says. -/
theorem entryPC_mode0 (hmode : s.mode = .mode0) (p : State) : entryPC r s p = mode0Entry r.vector := by
  simp only [entryPC, htype, hmode]

theorem entryPC_mode1 (hmode : s.mode = .mode1) (p : State) : entryPC r s p = 0x0038 := by
  simp only [entryPC, htype, hmode]

theorem entryPC_mode2 (hmode : s.mode = .mode2) (p : State) : entryPC r s p = mode2Entry (s.i ++ r.vector) p := by
  simp only [entryPC, htype, hmode]

end

/-- R264: a Mode2 entry by the table reads it in the memory the push leaves, which is the memory of the state after the
entry. -/
theorem mode2Entry_push16 (r : InterruptRequest) (s : State) (x : Word) :
    mode2Entry x (s.push16 s.pc) =
      if s.config.im2Indirect = true then
        (handleInterrupt r s).readByte (x + 1) ++ (handleInterrupt r s).readByte x
      else x := by
  rw [mode2Entry, Meanings.push16_config, State.readWord, wordOf]
  simp only [State.readByte, Steps.handleInterrupt_fields]

/-- Settles O28: an entry runs from the state after the selection, which differs from `s` in the controller's fields alone;
its one record names every field of the row, and each Mode clause is the entry's PC in that mode. -/
theorem interruptEntryTable : Obligations.InterruptEntryTable := by
  intro s hfault
  refine ⟨fun hnmi => ?_, fun r hmask htype => ?_⟩
  · refine ⟨_, step_nmi s hfault hnmi, handleInterrupt_pushed nmiRequest _, ?_⟩
    rw [handleInterrupt_eq]
    rfl
  · refine ⟨_, step_maskable s r hfault hmask, handleInterrupt_pushed r _, ?_⟩
    have hentry := handleInterrupt_eq r
      { s with samplePoint := true, eiDelay := 0, pendingMaskable := s.pendingMaskable.tail }
    have hpc := congrArg State.pc hentry
    refine ⟨fun hmode hrst => ?_, fun hmode hother => ?_, fun hmode => ?_, fun hmode htable => ?_,
      fun hmode hdirect => ?_, ?_⟩
    · exact hpc.trans ((entryPC_mode0 htype hmode _).trans (if_pos hrst))
    · exact hpc.trans ((entryPC_mode0 htype hmode _).trans (if_neg hother))
    · exact hpc.trans (entryPC_mode1 htype hmode _)
    · exact hpc.trans ((entryPC_mode2 htype hmode _).trans ((mode2Entry_push16 r _ _).trans (if_pos htable)))
    · exact hpc.trans ((entryPC_mode2 htype hmode _).trans
        ((mode2Entry_push16 r _ _).trans (if_neg (Bool.eq_false_iff.mp hdirect))))
    · rw [hentry]
      obtain ⟨type, vector, priority, source⟩ := r
      obtain rfl : type = .maskable := htype
      rfl

end Sys2Proof.Proofs.Entry
end

section
/-!
PROOFS. The laws of the ALU (42_arith8 R150, R167, 43_arith16 R180), once for every width.
-/

namespace Sys2Proof.Proofs.AluLaws

open Sys2Proof.Machine

section
variable {w : Nat} (x y : BitVec w) (c : Bool)

/-- R7: a flag as a number, taken to the integers. -/
theorem bit_cast : ((bit c : Nat) : Int) = if c then 1 else 0 := by
  cases c <;> rfl

theorem two_pow_cast (w : Nat) : (2 : Int) ^ w = ((2 ^ w : Nat) : Int) := by
  push_cast
  rfl

theorem bit_not : bit c + bit (!c) = 1 := by
  cases c <;> rfl

/-- R150, R180: carry and result are the exact sum. -/
theorem addWith_exact :
    (if (addWith w x y c).carry then 2 ^ w else 0) + (addWith w x y c).res.toNat = x.toNat + y.toNat + bit c := by
  have hx := x.isLt
  have hy := y.isLt
  have hbit := bit_not c
  have hres : (addWith w x y c).res.toNat = (x.toNat + y.toNat + bit c) % 2 ^ w := BitVec.toNat_ofNat _ _
  have hcarry : (addWith w x y c).carry = decide (2 ^ w ≤ x.toNat + y.toNat + bit c) := rfl
  rw [hres, hcarry]
  by_cases hover : 2 ^ w ≤ x.toNat + y.toNat + bit c
  · rw [if_pos (decide_eq_true hover), Nat.mod_eq_sub_mod hover, Nat.mod_eq_of_lt (by omega)]
    omega
  · rw [if_neg (by simpa using hover), Nat.mod_eq_of_lt (by omega), Nat.zero_add]

/-- R150, R180: result and borrow are the exact difference. -/
theorem subWith_exact :
    ((subWith w x y c).res.toNat : Int) - (if (subWith w x y c).carry then 2 ^ w else 0) =
      x.toNat - y.toNat - if c then 1 else 0 := by
  have hx := x.isLt
  have hy := y.isLt
  have hbit := bit_not c
  have hcarry : (subWith w x y c).carry = decide ((x.toNat : Int) - y.toNat - bit c < 0) := rfl
  rw [← bit_cast, subWith_res, hcarry, two_pow_cast]
  generalize 2 ^ w = turn at hx hy ⊢
  by_cases hborrow : (x.toNat : Int) - y.toNat - bit c < 0
  · rw [if_pos (decide_eq_true hborrow), ← Int.add_emod_right, Int.emod_eq_of_lt (by omega) (by omega)]
    omega
  · rw [if_neg (by simpa using hborrow), Int.emod_eq_of_lt (by omega) (by omega), sub_zero]

/-- R167: a subtraction is the addition of the complement with the carry inverted: the two exact results differ by one
whole turn of the width, which the carry counts and the borrow does not. -/
theorem subWith_eq_addWith_complement {z : BitVec w} (hz : y.toNat + z.toNat + 1 = 2 ^ w) :
    (subWith w x y c).res = (addWith w x z (!c)).res ∧ (subWith w x y c).carry = !(addWith w x z (!c)).carry := by
  have hsub := subWith_exact x y c
  have hadd := addWith_exact x z (!c)
  have hbit := bit_not c
  have hsubLt := (subWith w x y c).res.isLt
  have haddLt := (addWith w x z (!c)).res.isLt
  rw [← bit_cast, two_pow_cast] at hsub
  rw [← BitVec.toNat_inj]
  generalize 2 ^ w = turn at *
  cases hborrow : (subWith w x y c).carry <;> cases hcarry : (addWith w x z (!c)).carry <;>
    simp only [hborrow, hcarry, Bool.false_eq_true, if_true, if_false, Bool.not_true, Bool.not_false, and_true,
      and_false] at hsub hadd ⊢ <;> omega

end

/-- Settles O41: the laws at widths 8 and 16, with 255 - y and 65535 - y as the complements. -/
theorem aluLawsAreExact : Obligations.AluLawsAreExact := by
  refine ⟨fun x y c => ?_, fun x y c => ?_⟩
  · obtain ⟨hres, hcarry⟩ := subWith_eq_addWith_complement x y c (z := 255 - y) (by bv_omega)
    exact ⟨addWith_exact x y c, subWith_exact x y c, beq_eq_decide _ _, beq_eq_decide _ _, hres, hcarry⟩
  · obtain ⟨hres, hcarry⟩ := subWith_eq_addWith_complement x y c (z := 65535 - y) (by bv_omega)
    exact ⟨addWith_exact x y c, subWith_exact x y c, beq_eq_decide _ _, beq_eq_decide _ _, hres, hcarry⟩

end Sys2Proof.Proofs.AluLaws
end
